-- ==== Sys2Proof/Word.lean ====
section
/-! DEFINITION. The word of the command port and the byte of frame data (spec/20_memory.md R47, R51; spec/00_scope.md R9 `WORD`). -/

namespace Sys2Proof

/-- One word of the command port: 32 bits, the only access width there is (20 R51). -/
abbrev Word := BitVec 32

/-- One byte of frame data (00 R15). -/
abbrev Byte := BitVec 8

end Sys2Proof
end

