-- ==== Sys2Proof/Syntax.lean ====
section
/-! DEFINITION. What the three agents can do to the block, as syntax: the 28 commands of spec/opcode_table.json with
their operands (spec/30_encoding.md R70), the nine events of the bus engine and the clock (spec/41 to 44), and the
inputs a run is made of. No meaning is given here. -/

namespace Sys2Proof

/-- The bit-timing phase: arbitration (Slow) or CAN-FD data phase (Fast) (10 R27). -/
inductive Phase where
  | slow | fast
  deriving DecidableEq, Repr, Inhabited

/-- The work mode (10 R26): production or test capability. -/
inductive WorkMode where
  | normal | test
  deriving DecidableEq, Repr, Inhabited

/-- A filter's mask type (30 R65). -/
inductive MaskType where
  | stdOnly | extOnly | both
  deriving DecidableEq, Repr, Inhabited

/-- The buffer a TX_LOAD fills (41 R93). -/
inductive TxBuffer where
  | ptb | stb
  deriving DecidableEq, Repr, Inhabited

/-- What a TX_ENABLE enables (41 R95). -/
inductive TxSelect where
  | ptb | stbOne | stbAll
  deriving DecidableEq, Repr, Inhabited

/-- The receive overflow policy (10 R30). -/
inductive RxPolicy where
  | discardNew | saveNew
  deriving DecidableEq, Repr, Inhabited

/-- The TTC trigger types (10 R32, 30 R66). -/
inductive TrigType where
  | immediate | time | singleShotTransmit | transmitStart | transmitStop
  deriving DecidableEq, Repr, Inhabited

/-- The fault classification of 00 R19. -/
inductive ErrorType where
  | none | bit | form | stuff | ack | crc | other
  deriving DecidableEq, Repr, Inhabited

/-- One bit-timing tuple; each field holds the value itself (30 R63). -/
structure BitTiming where
  seg1 : BitVec 8
  seg2 : BitVec 8
  sjw : BitVec 8
  prescaler : BitVec 8
  deriving DecidableEq, Repr, Inhabited

/-- The transmit options of 10 R29. -/
structure TxOptions where
  ptbSS : Bool
  stbSS : Bool
  stbPrio : Bool
  deriving DecidableEq, Repr, Inhabited

/-- One acceptance filter (10 R28). -/
structure Filter where
  id : BitVec 29
  mask : BitVec 29
  maskType : MaskType
  en : Bool
  deriving DecidableEq, Repr, Inhabited

/-- A transmit frame (00 R15). `data` holds the frame's bytes, byte 0 first. -/
structure TxFrame where
  id : BitVec 29
  ide : Bool
  rtr : Bool
  fdf : Bool
  brs : Bool
  dlc : BitVec 4
  data : List Byte
  deriving DecidableEq, Repr, Inhabited

/-- A received frame: the fields of a transmit frame, the fault class the bus engine reports with it and the TTC time
of its reception (00 R17). -/
structure RxFrame where
  frame : TxFrame
  errorType : ErrorType
  cycleTime : BitVec 16
  deriving DecidableEq, Repr, Inhabited

/-- The TTC configuration (10 R32, 30 R66). `slotPtr` is the 8-bit operand field; 44 R126 bounds it by NSTB. -/
structure TtcConfig where
  refId : BitVec 29
  refIde : Bool
  presc : BitVec 16
  slotPtr : BitVec 8
  trigType : TrigType
  tew : BitVec 16
  trigTime : BitVec 16
  watchTime : BitVec 16
  deriving DecidableEq, Repr, Inhabited

/-- The 28 commands, one constructor per row of spec/opcode_table.json, with the operand fields of 30 R70. -/
inductive Instr where
  /-- CFG_ENTER (40 R77) -/
  | cfgEnter
  /-- CFG_LEAVE (40 R78) -/
  | cfgLeave
  /-- SET_WORK_MODE (40 R79) -/
  | setWorkMode (mode : WorkMode)
  /-- SET_TX_OPTIONS (41 R92) -/
  | setTxOptions (opt : TxOptions)
  /-- BT_WRITE (40 R80) -/
  | btWrite (phase : Phase) (bt : BitTiming)
  /-- BT_READ (40 R81) -/
  | btRead (phase : Phase)
  /-- FILTER_WRITE (40 R83) -/
  | filterWrite (index : BitVec 4) (maskType : MaskType) (id mask : BitVec 29)
  /-- FILTER_ENABLE (40 R84) -/
  | filterEnable (sel : BitVec 16) (en : Bool)
  /-- FILTER_READ (40 R85) -/
  | filterRead (index : BitVec 4)
  /-- RESET (40 R86) -/
  | reset
  /-- TX_LOAD (41 R93) -/
  | txLoad (buf : TxBuffer) (frame : TxFrame)
  /-- TX_ENABLE (41 R95) -/
  | txEnable (tsel : TxSelect)
  /-- TX_ABORT (41 R96) -/
  | txAbort (ptb stb : Bool)
  /-- TX_STATUS_READ (41 R97) -/
  | txStatusRead
  /-- RX_SET_CONFIG (42 R106) -/
  | rxSetConfig (afwl : BitVec 4) (policy : RxPolicy)
  /-- RX_PEEK (42 R107) -/
  | rxPeek
  /-- RX_RELEASE (42 R108) -/
  | rxRelease
  /-- RX_STATUS_READ (42 R109) -/
  | rxStatusRead
  /-- ERR_SET_WARN_LIMIT (43 R119) -/
  | errSetWarnLimit (ewl : BitVec 8)
  /-- ERR_READ (43 R120) -/
  | errRead
  /-- ERR_FORCE_BUSOFF (43 R121) -/
  | errForceBusOff
  /-- ERR_CLEAR_COUNTERS (43 R122) -/
  | errClearCounters
  /-- TTC_CONFIG (44 R126) -/
  | ttcConfig (cfg : TtcConfig)
  /-- TTC_ENABLE (44 R127) -/
  | ttcEnable (en : Bool)
  /-- TTC_READ (44 R128) -/
  | ttcRead
  /-- STATUS_READ (45 R137) -/
  | statusRead
  /-- STATUS_CLEAR (45 R138) -/
  | statusClear (mask : BitVec 14)
  /-- INT_ENABLE (45 R139) -/
  | intEnable (mask : BitVec 14) (en : Bool)
  deriving DecidableEq, Repr, Inhabited

/-- The bus engine's draw where an attempt ends without success (41 R91, log 3): whether a requested abort is
honoured. -/
structure AbortDraw where
  honour : Bool
  deriving DecidableEq, Repr, Inhabited

/-- The events of the bus engine and the clock, each with the data the agent draws (00 R8). -/
inductive Event where
  /-- EV_TX_START (41 R98) -/
  | txStart
  /-- EV_TX_SUCCESS (41 R99) -/
  | txSuccess
  /-- EV_TX_ARB_LOST(pos) (41 R100) -/
  | txArbLost (pos : BitVec 5) (draw : AbortDraw)
  /-- EV_TX_ERROR(t) (41 R101) -/
  | txError (t : ErrorType) (draw : AbortDraw)
  /-- EV_RX_FRAME(fr, et) (42 R110); the draw is used only if the counters enter bus-off (43 R114) -/
  | rxFrame (fr : TxFrame) (et : ErrorType) (draw : AbortDraw)
  /-- EV_RX_ERROR(t) (42 R111); the draw is used only if the counters enter bus-off (43 R114) -/
  | rxError (t : ErrorType) (draw : AbortDraw)
  /-- EV_BUS_OFF (43 R117) -/
  | busOff (draw : AbortDraw)
  /-- EV_BUS_OFF_RECOVER (43 R118) -/
  | busOffRecover
  /-- EV_CLK_TICK (44 R129) -/
  | clkTick
  deriving DecidableEq, Repr, Inhabited

/-- The ways a host can break a duty of the host table (46 R156) at the command port. -/
inductive HostBreach where
  /-- a command before the block's clock is enabled, or with the clock gated off -/
  | clockOff
  /-- a command while the platform's write protection is locked -/
  | writeProtected
  /-- an access narrower than a word (20 R51) -/
  | narrowAccess
  /-- a misaligned access (20 R51) -/
  | misalignedAccess
  deriving DecidableEq, Repr, Inhabited

/-- One input of a run: what one agent does in one step (00 R6). A command transaction is a non-empty list of words
(20 R47), here its first word and the rest. -/
inductive Input where
  | command (w0 : Word) (rest : List Word)
  | event (e : Event)
  | hardwareReset
  | hostBreach (b : HostBreach)
  deriving DecidableEq, Repr, Inhabited

end Sys2Proof
end

