-- ==== Sys2Proof/Config.lean ====
section
/-! DEFINITION. What an implementation fixes (spec/00_scope.md R9) and the free values (R11 `draw`). The numbers the
spec fixes are definitions; the named parameters are the fields of `Params`, which a state carries, so that a claim
about every state is a claim for every parameter value; a draw that no input carries is an opaque constant, of which
nothing can be proved. -/

namespace Sys2Proof.Config

/-- NRX, the receive FIFO's slots (00 R9). -/
def nrx : Nat := 8

/-- CNT_MAX, the error counters' maximum (00 R9, D25). -/
def cntMax : Nat := 255

/-- The legal range of one bit-timing field, both ends within it. A range may begin at 0: the spec shuts 0 out of the
default ranges (40 R80, D10) and, by 30 R63, out of every field's range, while D10 leaves the ranges open; the model
leaves the lower end to the parameter (DESIGN CHOICE, log 20). -/
structure FieldRange where
  lo : Nat
  hi : Nat
  deriving DecidableEq, Repr

/-- BT_RANGE of one phase: a range per field (00 R9, D10). -/
structure BtRange where
  seg1 : FieldRange
  seg2 : FieldRange
  sjw : FieldRange
  prescaler : FieldRange
  deriving DecidableEq, Repr

/-- The change one bus event makes to the two error counters (43 R113). -/
structure Delta where
  dRec : Int
  dTec : Int
  deriving DecidableEq, Repr

/-- A change for each error type, in the order of 00 R19. -/
structure DeltaByType where
  none : Delta
  bit : Delta
  form : Delta
  stuff : Delta
  ack : Delta
  crc : Delta
  other : Delta
  deriving DecidableEq, Repr

/-- ERR_DELTA as a table: every function from `EvKind` to pairs of integers is one such table (43 R113). -/
structure ErrDelta where
  txOk : Delta
  rxOk : Delta
  txErr : DeltaByType
  rxErr : DeltaByType
  deriving DecidableEq, Repr

/-- EvKind, the bus events that change the error counters (43 R113). -/
inductive EvKind where
  | txOk
  | rxOk
  | txErr (t : ErrorType)
  | rxErr (t : ErrorType)
  deriving DecidableEq, Repr

/-- The named parameters of 00 R9 other than NSTB and NFILT, which are the lengths of the slot list and of the filter
bank (log 6). -/
structure Params where
  /-- BT_RANGE_SLOW (D10); any ranges, 0 not shut out (log 20) -/
  btRangeSlow : BtRange
  /-- BT_RANGE_FAST (D10); any ranges, 0 not shut out (log 20) -/
  btRangeFast : BtRange
  /-- MASK_ONE_COMPARES (D13) -/
  maskOneCompares : Bool
  /-- ERR_DELTA (D25) -/
  errDelta : ErrDelta
  /-- EP_TH (D26) -/
  epTh : Nat
  /-- BUSOFF_TEC (D58) -/
  busOffTec : Option Nat
  /-- TTC_PRESC_OK (D37) -/
  ttcPrescOk : List (BitVec 16)
  /-- REF_NEEDS_ACCEPT (D39) -/
  refNeedsAccept : Bool
  deriving DecidableEq, Repr

/-- One set of reset draws (70 R173), raw: `Machine/Draws.lean` brings each value into the range the rule gives. -/
structure ResetDraw where
  btSlow : BitTiming
  btFast : BitTiming
  filt : List Filter
  txOpt : TxOptions
  afwl : Nat
  rxPolicy : RxPolicy
  ewl : Nat
  ttcCfg : TtcConfig
  prescIndex : Nat
  ie : BitVec 14
  deriving DecidableEq, Repr, Inhabited

/-- The draws of the `n`-th draw, if it is a reset (70 R173). FREE VALUE (log 4). -/
opaque resetDraw : Nat → ResetDraw

/-- The bus engine's choice at the `n`-th draw, if it is an attempt that ERR_FORCE_BUSOFF ends (41 R91). FREE VALUE (log 3). -/
opaque abortDraw : Nat → AbortDraw

/-- What an agent does at the `n`-th draw, once the listed inputs are used up (00 R8, 46 R157). FREE VALUE (log 1). -/
opaque agentInput : Nat → Input

end Sys2Proof.Config
end

