-- ==== Sys2Proof/Machine/Bits.lean ====
section
/-! DEFINITION. Bit fields of a word (spec/00_scope.md R10) and the byte order of frame data (spec/20_memory.md R50). -/

namespace Sys2Proof

/-- `w[lo+len-1 : lo]` of 00 R10. -/
def field (w : Word) (lo len : Nat) : BitVec len := w.extractLsb' lo len

/-- `w[i]` of 00 R10. -/
def bitAt (w : Word) (i : Nat) : Bool := w.getLsbD i

/-- The `len` reserved bits from bit `lo` are all 0 (30 R60). -/
def zeroAt (w : Word) (lo len : Nat) : Bool := field w lo len == 0#len

/-- One bit as a bit vector, for a word that is put together by `++` (00 R10 `{a, b}`). -/
def bit1 (b : Bool) : BitVec 1 := BitVec.ofBool b

/-- Byte `r` of a word, byte 0 the least significant (20 R50). -/
def byteOf (w : Word) (r : Nat) : Byte := w.extractLsb' (8 * r) 8

/-- `ceil(n/4)`: the data words of `n` bytes (30 R61). -/
def dataWordCount (n : Nat) : Nat := (n + 3) / 4

/-- Data word `j` of a byte sequence: bytes `4j` to `4j+3`, the first in the low byte, unused bytes 0 (20 R50). -/
def packWord (data : List Byte) (j : Nat) : Word :=
  data.getD (4 * j + 3) 0 ++ data.getD (4 * j + 2) 0 ++ data.getD (4 * j + 1) 0 ++ data.getD (4 * j) 0

/-- The data words of a byte sequence (20 R50). -/
def packData (data : List Byte) : List Word :=
  (List.range (dataWordCount data.length)).map (packWord data)

/-- Byte `k` of the data words: byte `k mod 4` of word `k div 4` (20 R50). -/
def dataByte (ws : List Word) (k : Nat) : Byte := byteOf (ws.getD (k / 4) 0) (k % 4)

/-- The first `n` bytes of the data words (20 R50). -/
def unpackData (n : Nat) (ws : List Word) : List Byte := (List.range n).map (dataByte ws)

/-- The bytes of the data words behind the first `n` are 0: unused bytes are written as 0 (20 R50, 30 R60). -/
def unusedBytesZero (n : Nat) (ws : List Word) : Bool :=
  (List.range (4 * ws.length)).all fun k => decide (k < n) || dataByte ws k == 0#8

/-- `for i with mask[i] = 1: v[i] <- b` over a 14-bit flag set (45 R138, R139). -/
def setMasked (v mask : BitVec 14) (b : Bool) : BitVec 14 :=
  BitVec.ofFnLE fun i => if mask.getLsbD i then b else v.getLsbD i

end Sys2Proof
end

