-- ==== Sys2Proof/Machine/Draws.lean ====
section
/-! DEFINITION. The reset draws brought into the ranges of spec/70_reset_and_hazards.md R173, and the default values of
the parameters (spec/00_scope.md R9, spec/95_test_vectors.md section 1). -/

namespace Sys2Proof.Machine

open Sys2Proof.Config

/-- A drawn value brought into `1..hi`: every value of the range is drawn by some raw value (70 R173). -/
def drawIn (hi raw : Nat) : Nat := 1 + raw % hi

/-- A drawn `afwl` in `1..8` (10 R30). -/
def drawAfwl (d : ResetDraw) : BitVec 4 := BitVec.ofNat 4 (drawIn nrx d.afwl)

/-- A drawn `ewl` in `1..CNT_MAX` (10 R31). -/
def drawEwl (d : ResetDraw) : BitVec 8 := BitVec.ofNat 8 (drawIn cntMax d.ewl)

/-- A drawn legal prescaler (10 R32). With no legal prescaler at all the raw value stands (log 4). -/
def drawPresc (p : Params) (d : ResetDraw) : BitVec 16 :=
  p.ttcPrescOk.getD (d.prescIndex % p.ttcPrescOk.length) d.ttcCfg.presc

/-- A drawn TTC configuration that TTC_CONFIG accepts (10 R32, 44 R126): `slotPtr ≤ NSTB`, a legal prescaler, and a
standard reference identifier below `2^11`. -/
def drawTtcCfg (p : Params) (nstb : Nat) (d : ResetDraw) : TtcConfig :=
  { d.ttcCfg with
    slotPtr := BitVec.ofNat 8 (d.ttcCfg.slotPtr.toNat % (nstb + 1))
    presc := drawPresc p d
    refId := if d.ttcCfg.refIde then d.ttcCfg.refId else BitVec.ofNat 29 (d.ttcCfg.refId.toNat % 2 ^ 11) }

/-- A drawn filter bank of `nfilt` filters, every field drawn (10 R28). -/
def drawFilters (nfilt : Nat) (d : ResetDraw) : List Filter :=
  (List.range nfilt).map fun i => d.filt.getD i default

/-- The number of STB slots of the vectors (95 section 1, D8). -/
def defaultNstb : Nat := 3

/-- NFILT (00 R9, D9). -/
def defaultNfilt : Nat := 16

/-- Every bit-timing field from 1 to 255 (D10). -/
def defaultBtRange : BtRange := ⟨⟨1, 255⟩, ⟨1, 255⟩, ⟨1, 255⟩, ⟨1, 255⟩⟩

/-- The same change for every error type. -/
def uniformDelta (d : Delta) : DeltaByType := ⟨d, d, d, d, d, d, d⟩

/-- ERR_DELTA_ISO, the reference table of the vectors (43 R113). -/
def errDeltaIso : ErrDelta where
  txOk := ⟨0, -1⟩
  rxOk := ⟨-1, 0⟩
  txErr := uniformDelta ⟨0, 8⟩
  rxErr := uniformDelta ⟨1, 0⟩

/-- The parameter values the vectors assume, each the default of 00 R9 where R9 has one (95 section 1). -/
def defaultParams : Params where
  btRangeSlow := defaultBtRange
  btRangeFast := defaultBtRange
  maskOneCompares := true
  errDelta := errDeltaIso
  epTh := cntMax
  busOffTec := none
  ttcPrescOk := [1, 2, 4, 8]
  refNeedsAccept := true

end Sys2Proof.Machine
end

