-- ==== Sys2Proof/Machine/State.lean ====
section
/-! DEFINITION. The state of the block (spec/10_state.md), the reasons a step of the model can stop, and the reset state
(spec/70_reset_and_hazards.md R173, R174). -/

namespace Sys2Proof.Machine

open Sys2Proof.Config

/-- The controller state (10 R25). -/
inductive Mode where
  | config | normal
  deriving DecidableEq, Repr, Inhabited

/-- The result codes (30 R68, 60 R159). -/
inductive ResultCode where
  | ok | configError | bufferFull | empty | illegal
  deriving DecidableEq, Repr, Inhabited

/-- The response of the last command (10 R24). `words` are the data words behind `Rsp0` (30 R68, log 13). -/
structure Response where
  code : ResultCode
  words : List Word
  deriving DecidableEq, Repr, Inhabited

/-- The state of a transmit slot (10 R34). -/
inductive SlotState where
  | empty | queued | transmitting
  deriving DecidableEq, Repr, Inhabited

/-- A transmit slot (10 R34). `frame` and `seq` mean something only while `st` is not Empty. -/
structure Slot where
  st : SlotState
  frame : TxFrame
  seq : Nat
  abortReq : Bool
  deriving DecidableEq, Repr, Inhabited

/-- The STB enable (10 R38). -/
inductive StbEnable where
  | off | one | all
  deriving DecidableEq, Repr, Inhabited

/-- Everything the spec gives the block, field by field in the order of spec/10_state.md, and behind it the three
fields of the model. -/
@[ext]
structure State where
  /-- the response of the last command (10 R24) -/
  resp : Response
  /-- the controller state (10 R25) -/
  mode : Mode
  /-- the work mode (10 R26) -/
  workMode : WorkMode
  /-- `bt[Slow]` (10 R27) -/
  btSlow : BitTiming
  /-- `bt[Fast]` (10 R27) -/
  btFast : BitTiming
  /-- the acceptance filters, NFILT of them (10 R28) -/
  filt : List Filter
  /-- the transmit options (10 R29) -/
  txOpt : TxOptions
  /-- the receive warning limit, 1..8 (10 R30) -/
  afwl : BitVec 4
  /-- the receive overflow policy (10 R30) -/
  rxPolicy : RxPolicy
  /-- the error-warning limit, 1..CNT_MAX (10 R31) -/
  ewl : BitVec 8
  /-- the TTC configuration (10 R32) -/
  ttcCfg : TtcConfig
  /-- the interrupt enables (10 R33) -/
  ie : BitVec 14
  /-- the Primary Transmit Buffer, slot 0 (10 R35) -/
  ptb : Slot
  /-- the Secondary Transmit Buffer, NSTB slots; `stb[j]` is slot `j + 1` (10 R36, 00 R14) -/
  stb : List Slot
  /-- the STB fill pointer (10 R37) -/
  fillPtr : Nat
  /-- the PTB enable (10 R38) -/
  ptbEn : Bool
  /-- the STB enable (10 R38) -/
  stbEn : StbEnable
  /-- the hidden load-order counter (10 R39) -/
  nextSeq : Nat
  /-- the receive FIFO, oldest first (10 R41) -/
  rx : List RxFrame
  /-- `rec`, the receive error counter (10 R42) -/
  recCount : BitVec 8
  /-- `tec`, the transmit error counter (10 R42) -/
  tecCount : BitVec 8
  /-- bus-off (10 R42) -/
  busOff : Bool
  /-- the last captured fault (10 R42) -/
  lastErrorType : ErrorType
  /-- the arbitration-lost bit position (10 R42) -/
  alc : BitVec 5
  /-- the TTC enable (10 R43) -/
  ttcEn : Bool
  /-- the TTC timer (10 R43) -/
  timer : BitVec 16
  /-- the hidden prescaler counter (10 R43) -/
  prescCnt : BitVec 16
  /-- the hidden trigger latch (10 R43, 44 R131) -/
  released : Bool
  /-- the latched flags (10 R44) -/
  flags : BitVec 14
  /-- MODEL: the parameters of 00 R9, constant (log 5) -/
  params : Params
  /-- MODEL: what the agents do next, oldest first (log 1) -/
  inputs : List Input
  /-- MODEL: the index of the next free value (log 3) -/
  draws : Nat
  deriving DecidableEq, Repr

/-- The reasons a step faults. -/
inductive Fault where
  /-- The state breaks one of the invariants I1 to I10 of 10 R46, so the model is wrong and every claim is refuted
  (60 R161, spec/93 section 4). Raised by `step` only, before the input acts. Safe: no run from reset reaches it. -/
  | invariantBroken
  deriving DecidableEq, Repr

/-- The reasons a step is refused. -/
inductive Refusal where
  /-- An instruction without a meaning, by its mnemonic. Raised by no arm: every command has its meaning. Safe. -/
  | notModelled (mnemonic : String)
  /-- An event whose precondition is false: it cannot occur, it has no step (00 R12). Raised by `step` on that event.
  Safe: nothing is claimed of such a step. -/
  | eventCannotOccur
  /-- A host that breaks a duty of the host table gets no step (46 R156, 20 R51, 60 R172). Raised by `step` on that
  input. Safe: claims are about hosts that meet the duties. -/
  | hostDuty (breach : HostBreach)
  /-- A second Transmitting slot, a state the spec leaves unreachable (00 R22). Raised by `step` only, before the
  input acts. Safe: no run from reset reaches it. -/
  | secondTransmitting
  deriving DecidableEq, Repr

/-- A frame with nothing in it, for the frame store of an Empty slot (log 8). -/
def blankFrame : TxFrame := ⟨0, false, false, false, false, 0, []⟩

/-- A slot after reset: Empty, no abort request (10 R35, R36); its frame and stamp mean nothing (log 8). -/
def emptySlot : Slot := ⟨.empty, blankFrame, 0, false⟩

/-- `resetState()` of 70 R173, for every parameter value, every number of slots and filters and every draw. No input is
listed and no draw counted. -/
def State.resetWith (p : Params) (nstb nfilt : Nat) (d : ResetDraw) : State where
  resp := ⟨.ok, []⟩
  mode := .config
  workMode := .normal
  btSlow := d.btSlow
  btFast := d.btFast
  filt := drawFilters nfilt d
  txOpt := d.txOpt
  afwl := drawAfwl d
  rxPolicy := d.rxPolicy
  ewl := drawEwl d
  ttcCfg := drawTtcCfg p nstb d
  ie := d.ie
  ptb := emptySlot
  stb := List.replicate nstb emptySlot
  fillPtr := 0
  ptbEn := false
  stbEn := .off
  nextSeq := 0
  rx := []
  recCount := 0
  tecCount := 0
  busOff := false
  lastErrorType := .none
  alc := 0
  ttcEn := false
  timer := 0
  prescCnt := 0
  released := false
  flags := 0
  params := p
  inputs := []
  draws := 0

/-- The state after the hardware reset that starts a run (70 R175, R176): the reset state with the parameters of the
vectors (log 5) and with free draws (log 4). -/
def State.reset : State :=
  { State.resetWith defaultParams defaultNstb defaultNfilt (resetDraw 0) with draws := 1 }

end Sys2Proof.Machine
end

