-- ==== Sys2Proof/Machine/Flags.lean ====
section
/-! DEFINITION. The flat flag set, its view and the interrupt request (spec/45_status.md R135, R136, R140). -/

namespace Sys2Proof.Machine

/-- The 14 flags, in bit order (45 R135). -/
inductive Flag where
  | txPtbDone | txStbDone | txAborted | rxReceived | rxOverflow | rxAlmostFull | rxFull | arbLost | busError
  | errWarning | errPassive | busOff | ttcTrigger | ttcWatchTrigger
  deriving DecidableEq, Repr

/-- The flag's bit number (45 R135). -/
def Flag.bit : Flag → Nat
  | .txPtbDone => 0
  | .txStbDone => 1
  | .txAborted => 2
  | .rxReceived => 3
  | .rxOverflow => 4
  | .rxAlmostFull => 5
  | .rxFull => 6
  | .arbLost => 7
  | .busError => 8
  | .errWarning => 9
  | .errPassive => 10
  | .busOff => 11
  | .ttcTrigger => 12
  | .ttcWatchTrigger => 13

/-- The flag's mask in the flag word (30 R67). -/
def Flag.mask (f : Flag) : BitVec 14 := BitVec.ofNat 14 (2 ^ f.bit)

/-- The latched flags that STATUS_CLEAR can clear: every latched flag but RX_OVERFLOW (45 R135, R138). -/
def clearable : BitVec 14 := 0x33AF

/-- `setFlag(F)` (45 R136). -/
def State.setFlag (s : State) (f : Flag) : State := { s with flags := s.flags ||| f.mask }

/-- `clearFlag(F)` (45 R136). -/
def State.clearFlag (s : State) (f : Flag) : State := { s with flags := s.flags &&& ~~~f.mask }

/-- `setFlag(F)` if a condition holds. -/
def State.setFlagIf (s : State) (c : Bool) (f : Flag) : State := if c then s.setFlag f else s

/-- A latched flag's value (10 R44). -/
def State.flag (s : State) (f : Flag) : Bool := s.flags.getLsbD f.bit

/-- `errorPassive` (43 R115). -/
def State.errorPassive (s : State) : Bool :=
  decide (s.params.epTh ≤ s.recCount.toNat) || decide (s.params.epTh ≤ s.tecCount.toNat)

/-- Bit `i` of the flag view: the state predicate for a status bit, the latch for every other (45 R135). -/
def State.viewBit (s : State) (i : Nat) : Bool :=
  if i = Flag.rxFull.bit then decide (s.rx.length = Config.nrx)
  else if i = Flag.errPassive.bit then s.errorPassive
  else if i = Flag.busOff.bit then s.busOff
  else s.flags.getLsbD i

/-- The flag view (45 R135). -/
def State.view (s : State) : BitVec 14 := BitVec.ofFnLE fun i => s.viewBit i

/-- The interrupt request line (45 R140): some flag is in view and enabled. -/
def State.irq (s : State) : Bool := (List.range 14).any fun i => s.viewBit i && s.ie.getLsbD i

end Sys2Proof.Machine
end

