-- ==== Sys2Proof/Machine/Frame.lean ====
section
/-! DEFINITION. Frame lengths and well-formed frames (spec/00_scope.md R15 to R18). -/

namespace Sys2Proof

/-- The CAN-FD data length of a data length code (00 R16). -/
def fdDataLen (dlc : BitVec 4) : Nat :=
  [0, 1, 2, 3, 4, 5, 6, 7, 8, 12, 16, 20, 24, 32, 48, 64].getD dlc.toNat 0

/-- `len(dlc, fdf, rtr)` of 00 R16. -/
def dataLen (dlc : BitVec 4) (fdf rtr : Bool) : Nat :=
  if rtr then 0 else if fdf then fdDataLen dlc else min dlc.toNat 8

/-- The data of a frame has the length its header says (00 R15). -/
def TxFrame.lengthOk (f : TxFrame) : Bool := f.data.length == dataLen f.dlc f.fdf f.rtr

/-- A frame is well-formed (00 R18): the identifier fits its width, `brs` implies `fdf`, and `fdf` excludes `rtr`. -/
def TxFrame.wellFormed (f : TxFrame) : Bool :=
  (f.ide || decide (f.id.toNat < 2 ^ 11)) && (!f.ide || decide (f.id.toNat < 2 ^ 29)) && (!f.brs || f.fdf)
    && (!f.fdf || !f.rtr)

end Sys2Proof
end

