-- ==== Sys2Proof/WellFormed.lean ====
section
/-! DEFINITION. Which terms of `Instr` are commands at all: the operand types carry every field width of
spec/30_encoding.md R70, so one relation between fields is left, the data length of a TX_LOAD (R64). A frame that is
not well-formed in the sense of spec/00_scope.md R18 is still a command: the block answers it CONFIG_ERROR (41 R93). -/

namespace Sys2Proof

/-- The term stands for a transaction: the data of a TX_LOAD has the length its `dlc`, `fdf` and `rtr` give (30 R64). -/
def Instr.wf : Instr → Bool
  | .txLoad _ f => f.lengthOk
  | .cfgEnter | .cfgLeave | .setWorkMode _ | .setTxOptions _ | .btWrite _ _ | .btRead _ | .filterWrite _ _ _ _
  | .filterEnable _ _ | .filterRead _ | .reset | .txEnable _ | .txAbort _ _ | .txStatusRead | .rxSetConfig _ _
  | .rxPeek | .rxRelease | .rxStatusRead | .errSetWarnLimit _ | .errRead | .errForceBusOff | .errClearCounters
  | .ttcConfig _ | .ttcEnable _ | .ttcRead | .statusRead | .statusClear _ | .intEnable _ _ => true

end Sys2Proof
end

