-- ==== Sys2Proof/Decode.lean ====
section
/-! DEFINITION. Decoding of a command transaction (spec/30_encoding.md): total on every list of words, rejecting by
name in the order of R69, and the encoder written from the same tables (R63 to R67, R70). -/

namespace Sys2Proof

/-- The assigned opcodes, in the order of 30 R70. -/
inductive Opcode where
  | cfgEnter | cfgLeave | setWorkMode | setTxOptions | btWrite | btRead | filterWrite | filterEnable | filterRead
  | reset | txLoad | txEnable | txAbort | txStatusRead | rxSetConfig | rxPeek | rxRelease | rxStatusRead
  | errSetWarnLimit | errRead | errForceBusOff | errClearCounters | ttcConfig | ttcEnable | ttcRead | statusRead
  | statusClear | intEnable
  deriving DecidableEq, Repr, Inhabited

/-- The opcode's number in `W0[31:24]` (30 R70). -/
def Opcode.code : Opcode → BitVec 8
  | .cfgEnter => 0x01 | .cfgLeave => 0x02 | .setWorkMode => 0x03 | .setTxOptions => 0x04
  | .btWrite => 0x05 | .btRead => 0x06 | .filterWrite => 0x07 | .filterEnable => 0x08
  | .filterRead => 0x09 | .reset => 0x0F
  | .txLoad => 0x10 | .txEnable => 0x11 | .txAbort => 0x12 | .txStatusRead => 0x13
  | .rxSetConfig => 0x20 | .rxPeek => 0x21 | .rxRelease => 0x22 | .rxStatusRead => 0x23
  | .errSetWarnLimit => 0x30 | .errRead => 0x31 | .errForceBusOff => 0x32 | .errClearCounters => 0x33
  | .ttcConfig => 0x40 | .ttcEnable => 0x41 | .ttcRead => 0x42
  | .statusRead => 0x50 | .statusClear => 0x51 | .intEnable => 0x52

/-- Every opcode, for the lookup of a code. -/
def Opcode.all : List Opcode :=
  [.cfgEnter, .cfgLeave, .setWorkMode, .setTxOptions, .btWrite, .btRead, .filterWrite, .filterEnable, .filterRead,
    .reset, .txLoad, .txEnable, .txAbort, .txStatusRead] ++
  [.rxSetConfig, .rxPeek, .rxRelease, .rxStatusRead, .errSetWarnLimit, .errRead, .errForceBusOff, .errClearCounters,
    .ttcConfig, .ttcEnable, .ttcRead, .statusRead, .statusClear, .intEnable]

/-- The opcode with a code, if one is assigned (30 R70, R71). -/
def Opcode.ofCode (c : BitVec 8) : Option Opcode := Opcode.all.find? fun o => o.code == c

/-- The number of words of a transaction (30 R61, R62): from the opcode alone, and for TX_LOAD from `W1[30]`, `W2[3:0]`
and `W2[4]`. `ws` are the words behind `W0`; a header word that is missing reads as 0, and the count is then larger
than the words there are. -/
def Opcode.wordCount (o : Opcode) (ws : List Word) : Nat :=
  match o with
  | .btWrite => 2
  | .filterWrite => 3
  | .ttcConfig => 4
  | .txLoad =>
    3 + dataWordCount (dataLen (field (ws.getD 1 0) 0 4) (bitAt (ws.getD 1 0) 4) (bitAt (ws.getD 0 0) 30))
  | .cfgEnter | .cfgLeave | .setWorkMode | .setTxOptions | .btRead | .filterEnable | .filterRead | .reset | .txEnable
  | .txAbort | .txStatusRead | .rxSetConfig | .rxPeek | .rxRelease | .rxStatusRead | .errSetWarnLimit | .errRead
  | .errForceBusOff | .errClearCounters | .ttcEnable | .ttcRead | .statusRead | .statusClear | .intEnable => 1

/-- Why a transaction is ILLEGAL, in the order of 30 R69 steps 1 to 3. `emptyTransaction`: a transaction has a first
word (20 R47), so no input of the machine is one. -/
inductive DecodeError where
  | emptyTransaction
  | unassignedOpcode
  | wrongWordCount
  | reservedField
  deriving DecidableEq, Repr

/-- A one-bit phase field (30 R70). -/
def Phase.ofBit (b : Bool) : Phase := if b then .fast else .slow

/-- The phase's bit (30 R70). -/
def Phase.bit : Phase → Bool
  | .slow => false
  | .fast => true

/-- A buffer field (30 R70). -/
def TxBuffer.ofBit (b : Bool) : TxBuffer := if b then .stb else .ptb

/-- The buffer's bit (30 R70). -/
def TxBuffer.bit : TxBuffer → Bool
  | .ptb => false
  | .stb => true

/-- A policy field (30 R70). -/
def RxPolicy.ofBit (b : Bool) : RxPolicy := if b then .saveNew else .discardNew

/-- The policy's bit (30 R70). -/
def RxPolicy.bit : RxPolicy → Bool
  | .discardNew => false
  | .saveNew => true

/-- A work-mode field; codes 2 and 3 are reserved (30 R70). -/
def WorkMode.ofCode (c : BitVec 2) : Option WorkMode :=
  if c = 0 then some .normal else if c = 1 then some .test else none

/-- The work mode's code (30 R70). -/
def WorkMode.code : WorkMode → BitVec 2
  | .normal => 0
  | .test => 1

/-- A mask-type field; code 3 is reserved (30 R65). -/
def MaskType.ofCode (c : BitVec 2) : Option MaskType :=
  if c = 0 then some .stdOnly else if c = 1 then some .extOnly else if c = 2 then some .both else none

/-- The mask type's code (30 R65). -/
def MaskType.code : MaskType → BitVec 2
  | .stdOnly => 0
  | .extOnly => 1
  | .both => 2

/-- A transmit selection field; code 3 is reserved (30 R70). -/
def TxSelect.ofCode (c : BitVec 2) : Option TxSelect :=
  if c = 0 then some .ptb else if c = 1 then some .stbOne else if c = 2 then some .stbAll else none

/-- The selection's code (30 R70). -/
def TxSelect.code : TxSelect → BitVec 2
  | .ptb => 0
  | .stbOne => 1
  | .stbAll => 2

/-- A trigger-type field; codes 5 to 7 are reserved (30 R66). -/
def TrigType.ofCode (c : BitVec 3) : Option TrigType :=
  if c = 0 then some .immediate else if c = 1 then some .time else if c = 2 then some .singleShotTransmit
  else if c = 3 then some .transmitStart else if c = 4 then some .transmitStop else none

/-- The trigger type's code (30 R66). -/
def TrigType.code : TrigType → BitVec 3
  | .immediate => 0
  | .time => 1
  | .singleShotTransmit => 2
  | .transmitStart => 3
  | .transmitStop => 4

/-- An error-type field; code 7 is reserved (30 R72). -/
def ErrorType.ofCode (c : BitVec 3) : Option ErrorType :=
  if c = 0 then some .none else if c = 1 then some .bit else if c = 2 then some .form else if c = 3 then some .stuff
  else if c = 4 then some .ack else if c = 5 then some .crc else if c = 6 then some .other else Option.none

/-- The error type's code (30 R72). -/
def ErrorType.code : ErrorType → BitVec 3
  | .none => 0
  | .bit => 1
  | .form => 2
  | .stuff => 3
  | .ack => 4
  | .crc => 5
  | .other => 6

/-- The bit-timing word (30 R63). -/
def BitTiming.word (t : BitTiming) : Word := t.prescaler ++ t.sjw ++ t.seg2 ++ t.seg1

/-- The tuple of a bit-timing word (30 R63). -/
def BitTiming.ofWord (w : Word) : BitTiming := ⟨field w 0 8, field w 8 8, field w 16 8, field w 24 8⟩

/-- The first descriptor word of a frame (30 R64 D1). -/
def TxFrame.d1 (f : TxFrame) : Word := 0#1 ++ bit1 f.rtr ++ bit1 f.ide ++ f.id

/-- The second descriptor word of a frame in a TX_LOAD (30 R64 D2; `errorType` and `cycleTime` are reserved there). -/
def TxFrame.d2 (f : TxFrame) : Word := 0#26 ++ bit1 f.brs ++ bit1 f.fdf ++ f.dlc

/-- The frame a descriptor's words hold (30 R64, 20 R50). -/
def TxFrame.ofWords (d1 d2 : Word) (data : List Word) : TxFrame where
  id := field d1 0 29
  ide := bitAt d1 29
  rtr := bitAt d1 30
  fdf := bitAt d2 4
  brs := bitAt d2 5
  dlc := field d2 0 4
  data := unpackData (dataLen (field d2 0 4) (bitAt d2 4) (bitAt d1 30)) data

/-- The reserved bits of a TX_LOAD's descriptor are 0, and so are the unused bytes of its last data word
(30 R60, R64; 20 R50). -/
def frameReservedZero (d1 d2 : Word) (data : List Word) : Bool :=
  zeroAt d1 31 1 && zeroAt d2 6 26 &&
    unusedBytesZero (dataLen (field d2 0 4) (bitAt d2 4) (bitAt d1 30)) data

/-- The fields of a command of the right word count; none where a reserved bit is 1 or an enumerated field holds a
reserved code (30 R69 step 3). `w1` to `w3` are the words behind `W0` (0 where the format has none), `data` the words
behind `W2`. -/
def Opcode.fields (o : Opcode) (w0 w1 w2 w3 : Word) (data : List Word) : Option Instr :=
  match o with
  | .cfgEnter => if zeroAt w0 0 24 then some .cfgEnter else none
  | .cfgLeave => if zeroAt w0 0 24 then some .cfgLeave else none
  | .setWorkMode => if zeroAt w0 2 22 then (WorkMode.ofCode (field w0 0 2)).map .setWorkMode else none
  | .setTxOptions => if zeroAt w0 3 21 then some (.setTxOptions ⟨bitAt w0 0, bitAt w0 1, bitAt w0 2⟩) else none
  | .btWrite => if zeroAt w0 1 23 then some (.btWrite (Phase.ofBit (bitAt w0 0)) (BitTiming.ofWord w1)) else none
  | .btRead => if zeroAt w0 1 23 then some (.btRead (Phase.ofBit (bitAt w0 0))) else none
  | .filterWrite =>
    if zeroAt w0 6 18 && zeroAt w1 29 3 && zeroAt w2 29 3 then
      (MaskType.ofCode (field w0 4 2)).map fun mt => .filterWrite (field w0 0 4) mt (field w1 0 29) (field w2 0 29)
    else none
  | .filterEnable => if zeroAt w0 17 7 then some (.filterEnable (field w0 0 16) (bitAt w0 16)) else none
  | .filterRead => if zeroAt w0 4 20 then some (.filterRead (field w0 0 4)) else none
  | .reset => if zeroAt w0 0 24 then some .reset else none
  | .txLoad =>
    if zeroAt w0 1 23 && frameReservedZero w1 w2 data then
      some (.txLoad (TxBuffer.ofBit (bitAt w0 0)) (TxFrame.ofWords w1 w2 data))
    else none
  | .txEnable => if zeroAt w0 2 22 then (TxSelect.ofCode (field w0 0 2)).map .txEnable else none
  | .txAbort => if zeroAt w0 2 22 then some (.txAbort (bitAt w0 0) (bitAt w0 1)) else none
  | .txStatusRead => if zeroAt w0 0 24 then some .txStatusRead else none
  | .rxSetConfig =>
    if zeroAt w0 5 19 then some (.rxSetConfig (field w0 0 4) (RxPolicy.ofBit (bitAt w0 4))) else none
  | .rxPeek => if zeroAt w0 0 24 then some .rxPeek else none
  | .rxRelease => if zeroAt w0 0 24 then some .rxRelease else none
  | .rxStatusRead => if zeroAt w0 0 24 then some .rxStatusRead else none
  | .errSetWarnLimit => if zeroAt w0 8 16 then some (.errSetWarnLimit (field w0 0 8)) else none
  | .errRead => if zeroAt w0 0 24 then some .errRead else none
  | .errForceBusOff => if zeroAt w0 0 24 then some .errForceBusOff else none
  | .errClearCounters => if zeroAt w0 0 24 then some .errClearCounters else none
  | .ttcConfig =>
    if zeroAt w0 11 13 && zeroAt w1 30 2 then
      (TrigType.ofCode (field w0 0 3)).map fun tt => .ttcConfig
        { refId := field w1 0 29, refIde := bitAt w1 29, presc := field w3 0 16, slotPtr := field w0 3 8,
          trigType := tt, tew := field w3 16 16, trigTime := field w2 0 16, watchTime := field w2 16 16 }
    else none
  | .ttcEnable => if zeroAt w0 1 23 then some (.ttcEnable (bitAt w0 0)) else none
  | .ttcRead => if zeroAt w0 0 24 then some .ttcRead else none
  | .statusRead => if zeroAt w0 0 24 then some .statusRead else none
  | .statusClear => if zeroAt w0 14 10 then some (.statusClear (field w0 0 14)) else none
  | .intEnable =>
    if zeroAt w0 14 2 && zeroAt w0 17 7 then some (.intEnable (field w0 0 14) (bitAt w0 16)) else none

/-- Decode a transaction (30 R69 steps 1 to 3): opcode, then word count, then reserved bits and codes. -/
def decode : List Word → Except DecodeError Instr
  | [] => .error .emptyTransaction
  | w0 :: ws =>
    match Opcode.ofCode (field w0 24 8) with
    | none => .error .unassignedOpcode
    | some o =>
      if 1 + ws.length ≠ o.wordCount ws then .error .wrongWordCount
      else
        match o.fields w0 (ws.getD 0 0) (ws.getD 1 0) (ws.getD 2 0) (ws.drop 2) with
        | none => .error .reservedField
        | some i => .ok i

/-- The opcode of a command (30 R70). -/
def Instr.opcode : Instr → Opcode
  | .cfgEnter => .cfgEnter
  | .cfgLeave => .cfgLeave
  | .setWorkMode _ => .setWorkMode
  | .setTxOptions _ => .setTxOptions
  | .btWrite _ _ => .btWrite
  | .btRead _ => .btRead
  | .filterWrite _ _ _ _ => .filterWrite
  | .filterEnable _ _ => .filterEnable
  | .filterRead _ => .filterRead
  | .reset => .reset
  | .txLoad _ _ => .txLoad
  | .txEnable _ => .txEnable
  | .txAbort _ _ => .txAbort
  | .txStatusRead => .txStatusRead
  | .rxSetConfig _ _ => .rxSetConfig
  | .rxPeek => .rxPeek
  | .rxRelease => .rxRelease
  | .rxStatusRead => .rxStatusRead
  | .errSetWarnLimit _ => .errSetWarnLimit
  | .errRead => .errRead
  | .errForceBusOff => .errForceBusOff
  | .errClearCounters => .errClearCounters
  | .ttcConfig _ => .ttcConfig
  | .ttcEnable _ => .ttcEnable
  | .ttcRead => .ttcRead
  | .statusRead => .statusRead
  | .statusClear _ => .statusClear
  | .intEnable _ _ => .intEnable

/-- `W0[23:0]` of a command (30 R70); the bits no field holds are 0 (30 R60). -/
def Instr.w0Fields : Instr → BitVec 24
  | .setWorkMode m => 0#22 ++ m.code
  | .setTxOptions o => 0#21 ++ bit1 o.stbPrio ++ bit1 o.stbSS ++ bit1 o.ptbSS
  | .btWrite p _ => 0#23 ++ bit1 p.bit
  | .btRead p => 0#23 ++ bit1 p.bit
  | .filterWrite index mt _ _ => 0#18 ++ mt.code ++ index
  | .filterEnable sel en => 0#7 ++ bit1 en ++ sel
  | .filterRead index => 0#20 ++ index
  | .txLoad buf _ => 0#23 ++ bit1 buf.bit
  | .txEnable t => 0#22 ++ t.code
  | .txAbort ptb stb => 0#22 ++ bit1 stb ++ bit1 ptb
  | .rxSetConfig afwl policy => 0#19 ++ bit1 policy.bit ++ afwl
  | .errSetWarnLimit ewl => 0#16 ++ ewl
  | .ttcConfig c => 0#13 ++ c.slotPtr ++ c.trigType.code
  | .ttcEnable en => 0#23 ++ bit1 en
  | .statusClear mask => 0#10 ++ mask
  | .intEnable mask en => 0#7 ++ bit1 en ++ 0#2 ++ mask
  | .cfgEnter | .cfgLeave | .reset | .txStatusRead | .rxPeek | .rxRelease | .rxStatusRead | .errRead | .errForceBusOff
  | .errClearCounters | .ttcRead | .statusRead => 0#24

/-- The words behind `W0` (30 R61, R63 to R66). -/
def Instr.tailWords : Instr → List Word
  | .btWrite _ t => [t.word]
  | .filterWrite _ _ id mask => [0#3 ++ id, 0#3 ++ mask]
  | .txLoad _ f => f.d1 :: f.d2 :: packData f.data
  | .ttcConfig c => [0#2 ++ bit1 c.refIde ++ c.refId, c.watchTime ++ c.trigTime, c.tew ++ c.presc]
  | .cfgEnter | .cfgLeave | .setWorkMode _ | .setTxOptions _ | .btRead _ | .filterEnable _ _ | .filterRead _ | .reset
  | .txEnable _ | .txAbort _ _ | .txStatusRead | .rxSetConfig _ _ | .rxPeek | .rxRelease | .rxStatusRead
  | .errSetWarnLimit _ | .errRead | .errForceBusOff | .errClearCounters | .ttcEnable _ | .ttcRead | .statusRead
  | .statusClear _ | .intEnable _ _ => []

/-- `W0` of a command: the opcode over the fields (30 R60). -/
def Instr.w0 (i : Instr) : Word := i.opcode.code ++ i.w0Fields

/-- The transaction of a command, written from 30 R61 to R67 and R70. -/
def encode (i : Instr) : List Word := i.w0 :: i.tailWords

/-- The transaction whose bits are `w`, bit 0 the least significant of the first word: as many words as `nbits` gives
or as the opcode asks for with operand words of zeros, whichever is more (log 17). -/
def tableTransaction (nbits w : Nat) : List Word :=
  let v := w % 2 ^ nbits
  let word (k : Nat) : Word := BitVec.ofNat 32 (v >>> (32 * k))
  let given := (nbits + 31) / 32
  let asked :=
    match Opcode.ofCode (field (word 0) 24 8) with
    | none => 1
    | some o => o.wordCount [word 1, word 2]
  (List.range (max given asked)).map word

/-- The command this decoder reads from the bits of an opcode-table row. -/
def decodeTableWord (nbits w : Nat) : Option Instr :=
  match decode (tableTransaction nbits w) with
  | .ok i => some i
  | .error _ => none

end Sys2Proof
end

