-- ==== Sys2Proof/Machine/Operands.lean ====
section
/-! DEFINITION. The checks on a command's operands (spec/30_encoding.md R69 step 4) and the codes of the response words
(spec/30_encoding.md R68, R72; the read commands of spec/40 to 45). -/

namespace Sys2Proof.Machine

open Sys2Proof.Config

/-- A field lies in its legal range (00 R9). -/
def inRange (r : FieldRange) (v : BitVec 8) : Bool := decide (r.lo ≤ v.toNat) && decide (v.toNat ≤ r.hi)

/-- BT_RANGE of a phase (00 R9). -/
def State.btRange (s : State) : Phase → BtRange
  | .slow => s.params.btRangeSlow
  | .fast => s.params.btRangeFast

/-- Every field of a tuple lies in its range (40 R80, second check). -/
def rangeAdmits (r : BtRange) (t : BitTiming) : Bool :=
  inRange r.seg1 t.seg1 && inRange r.seg2 t.seg2 && inRange r.sjw t.sjw && inRange r.prescaler t.prescaler

/-- The ordering checks of a tuple: `seg1 ≥ seg2 + 1` and `seg2 ≥ sjw` (40 R80, third and fourth check). -/
def timingOrdered (t : BitTiming) : Bool :=
  decide (t.seg2.toNat + 1 ≤ t.seg1.toNat) && decide (t.sjw.toNat ≤ t.seg2.toNat)

/-- Every check BT_WRITE makes on a tuple (40 R80). -/
def State.timingLegal (s : State) (p : Phase) (t : BitTiming) : Bool := rangeAdmits (s.btRange p) t && timingOrdered t

/-- A receive warning limit is legal (42 R106). -/
def afwlLegal (a : BitVec 4) : Bool := decide (1 ≤ a.toNat) && decide (a.toNat ≤ nrx)

/-- The bit rate a tuple gives at a controller clock of `f` Hz, in bits per second (40 R82). No rule depends on it. -/
def bitRate (f : Nat) (t : BitTiming) : ℚ :=
  f / (t.prescaler.toNat * (t.seg1.toNat + t.seg2.toNat))

/-- The result code's number in `Rsp0[3:0]` (30 R68). -/
def ResultCode.code : ResultCode → BitVec 4
  | .ok => 0
  | .configError => 1
  | .bufferFull => 2
  | .empty => 3
  | .illegal => 15

/-- The words the host reads from the port after a command: `Rsp0`, then the data words (30 R68). -/
def Response.portWords (r : Response) : List Word := (0#28 ++ r.code.code) :: r.words

/-- A slot state's code (41 R97). -/
def SlotState.code : SlotState → BitVec 2
  | .empty => 0
  | .queued => 1
  | .transmitting => 2

/-- The STB enable's code (41 R97). -/
def StbEnable.code : StbEnable → BitVec 2
  | .off => 0
  | .one => 1
  | .all => 2

/-- The descriptor words of a received frame and its data words (42 R107, 30 R64). -/
def rxFrameWords (e : RxFrame) : List Word :=
  e.frame.d1
    :: (e.cycleTime ++ 0#7 ++ e.errorType.code ++ bit1 e.frame.brs ++ bit1 e.frame.fdf ++ e.frame.dlc)
    :: packData e.frame.data

end Sys2Proof.Machine
end

