-- ==== Sys2Proof/Machine/Ops.lean ====
section
/-! DEFINITION. The operations the commands and events share: the response, the transmit slots and the scheduler
(spec/10_state.md R40, spec/41_transmit.md R87 to R94), the TTC latch and timer (spec/44_ttc.md), the error counters and
bus-off (spec/43_error.md), acceptance and the receive FIFO (spec/42_receive.md). The block takes no trap (60 R164):
what stands in an exception's place is the result code `fail` writes and the flag `setFlag` latches. -/

namespace Sys2Proof.Machine

open Sys2Proof.Config

/-- The outcome of a step of this machine. -/
abbrev Result := Host.Outcome State Fault Refusal

/-- `respond(code, words)` (00 R11, 10 R24). -/
def State.respond (s : State) (code : ResultCode) (words : List Word) : State := { s with resp := ⟨code, words⟩ }

/-- A command that fails a check: nothing changes but `resp` (60 R158). -/
def State.fail (s : State) (code : ResultCode) : State := s.respond code []

/-- `resetState()` (70 R173) with the free values of draw `s.draws`. The parameters, the numbers of slots and filters
and the inputs still to come are not the block's to reset. -/
def State.resetBlock (s : State) : State :=
  { State.resetWith s.params s.stb.length s.filt.length (resetDraw s.draws) with
    inputs := s.inputs, draws := s.draws + 1 }

/-! ### Slots (10 R34 to R40) -/

/-- NSTB: the number of STB slots (00 R9, log 6). -/
def State.nstb (s : State) : Nat := s.stb.length

/-- NFILT: the number of filters (00 R9, log 6). -/
def State.nfilt (s : State) : Nat := s.filt.length

/-- The slot holds no frame. -/
def Slot.isEmpty (sl : Slot) : Bool := sl.st == .empty

/-- The slot holds a frame that is not being sent. -/
def Slot.isQueued (sl : Slot) : Bool := sl.st == .queued

/-- The slot's frame is in arbitration or on the bus. -/
def Slot.isTransmitting (sl : Slot) : Bool := sl.st == .transmitting

/-- Slot `k`: slot 0 is the PTB, slot `k` is `stb[k-1]` (00 R14). A number that names no slot reads as an Empty one. -/
def State.slot (s : State) : Nat → Slot
  | 0 => s.ptb
  | j + 1 => s.stb.getD j emptySlot

/-- Change slot `k`. -/
def State.modifySlot (s : State) (k : Nat) (f : Slot → Slot) : State :=
  match k with
  | 0 => { s with ptb := f s.ptb }
  | j + 1 => { s with stb := s.stb.modify j f }

/-- The trigger types that hold the designated slot (44 R124). -/
def trigHolds : TrigType → Bool
  | .immediate => false
  | .time => false
  | .singleShotTransmit => true
  | .transmitStart => true
  | .transmitStop => true

/-- `held(k)` (10 R40). -/
def State.held (s : State) (k : Nat) : Bool :=
  s.ttcEn && decide (k = s.ttcCfg.slotPtr.toNat) && trigHolds s.ttcCfg.trigType && !s.released

/-- `pending(k)` (10 R40). -/
def State.pending (s : State) (k : Nat) : Bool :=
  (s.slot k).isQueued && (if k = 0 then s.ptbEn else s.stbEn != .off) && !s.held k

/-- `busy` (10 R40). -/
def State.busy (s : State) : Bool := s.ptb.isTransmitting || s.stb.any Slot.isTransmitting

/-- `stbFree` (10 R40). -/
def State.stbFree (s : State) : Nat := s.stb.countP Slot.isEmpty

/-- `k_tx`: the Transmitting slot, if there is one. -/
def State.txSlot (s : State) : Option Nat :=
  if s.ptb.isTransmitting then some 0 else (s.stb.findIdx? Slot.isTransmitting).map (· + 1)

/-- `singleShot(k)` (41 R87). -/
def State.singleShot (s : State) (k : Nat) : Bool :=
  (decide (k = 0) && s.txOpt.ptbSS) || (decide (1 ≤ k) && s.txOpt.stbSS) ||
    (s.ttcEn && decide (k = s.ttcCfg.slotPtr.toNat) && s.ttcCfg.trigType == .singleShotTransmit)

/-- `stbBook()` (41 R88): the STB enable never outlives the last STB frame. -/
def State.stbBook (s : State) : State := if s.stb.all Slot.isEmpty then { s with stbEn := .off } else s

/-- `ttcSlotEmptied(k)` (44 R125): a release serves one frame. -/
def State.ttcSlotEmptied (s : State) (k : Nat) : State :=
  if k = s.ttcCfg.slotPtr.toNat then { s with released := false } else s

/-- The PTB's enable ends with its frame; `One` ends with one STB frame (41 R91, R99). -/
def State.enableEnds (s : State) (k : Nat) : State :=
  if k = 0 then { s with ptbEn := false } else if s.stbEn = .one then { s with stbEn := .off } else s

/-- The PTB's enable ends with its frame (41 R91, honoured abort). -/
def State.ptbEnds (s : State) (k : Nat) : State := if k = 0 then { s with ptbEn := false } else s

/-- The slot's frame is gone and so is its abort request (41 R91, R99). -/
def Slot.emptied (sl : Slot) : Slot := { sl with st := .empty, abortReq := false }

/-- The slot's frame waits again, without an abort request (41 R91). -/
def Slot.requeued (sl : Slot) : Slot := { sl with st := .queued, abortReq := false }

/-- The slot's frame is being sent (41 R98). -/
def Slot.started (sl : Slot) : Slot := { sl with st := .transmitting }

/-- What TX_ABORT does to one slot: a Queued frame is removed, a Transmitting one carries the request (41 R96). -/
def Slot.abort (sl : Slot) : Slot :=
  match sl.st with
  | .empty => sl
  | .queued => { sl with st := .empty }
  | .transmitting => { sl with abortReq := true }

/-! ### The scheduler's choice (41 R89) -/

/-- Slot `a` goes before slot `b`: under ID priority by `(id, seq)` lexicographically, else by `seq`. -/
def State.goesBefore (s : State) (a b : Nat) : Bool :=
  let x := s.slot a
  let y := s.slot b
  if s.txOpt.stbPrio then
    decide (x.frame.id.toNat < y.frame.id.toNat) || (x.frame.id == y.frame.id && decide (x.seq < y.seq))
  else decide (x.seq < y.seq)

/-- The STB slots that are pending, by number. -/
def State.stbCandidates (s : State) : List Nat := ((List.range s.nstb).map (· + 1)).filter s.pending

/-- The first of a list that no other goes before. -/
def State.leastOf (s : State) : List Nat → Option Nat
  | [] => none
  | k :: ks => some (ks.foldl (fun best c => if s.goesBefore c best then c else best) k)

/-- `select()` (41 R89): the PTB first, else the least pending STB slot. -/
def State.select (s : State) : Option Nat := if s.pending 0 then some 0 else s.leastOf s.stbCandidates

/-- `stbTarget()` (41 R94): the first Empty STB slot in cyclic order from the fill pointer. -/
def State.stbTarget (s : State) : Option Nat :=
  ((List.range s.nstb).map fun i => (s.fillPtr + i) % s.nstb).find? fun j => (s.stb.getD j emptySlot).isEmpty

/-! ### The end of an attempt (41 R91) -/

/-- Why an attempt ends without success (41 R91). -/
inductive FailCause where
  | arbLost | txError | busOff | configEntry
  deriving DecidableEq, Repr

/-- Whether the bus engine's draw can honour an abort at the end of an attempt (41 R91). Where CFG_ENTER ends it no abort
is honoured: a frame that is not single-shot "is re-queued", with no flag (D23, 40 R77, 70 R184; log 7). -/
def FailCause.mayHonour : FailCause → Bool
  | .arbLost => true
  | .txError => true
  | .busOff => true
  | .configEntry => false

/-- A requested abort is honoured at the end of the attempt (41 R91). -/
def State.honours (s : State) (k : Nat) (c : FailCause) (d : AbortDraw) : Bool :=
  c.mayHonour && (s.slot k).abortReq && d.honour

/-- `failAttempt(k, cause)` (41 R91). -/
def State.failAttempt (s : State) (k : Nat) (c : FailCause) (d : AbortDraw) : State :=
  if s.singleShot k then
    (((s.modifySlot k Slot.emptied).enableEnds k).stbBook).ttcSlotEmptied k
  else if s.honours k c d then
    ((((s.modifySlot k Slot.emptied).setFlag .txAborted).ptbEnds k).stbBook).ttcSlotEmptied k
  else s.modifySlot k Slot.requeued

/-- End the attempt in progress, if there is one. -/
def State.endAttempt (s : State) (c : FailCause) (d : AbortDraw) : State :=
  match s.txSlot with
  | some k => s.failAttempt k c d
  | none => s

/-- ERR_FORCE_BUSOFF, where it ends an attempt, takes the bus engine's choice from the free values (log 3): the choice is
`abortDraw s.draws`, and the count goes on. -/
def State.countDraw (s : State) : State := if s.busy then { s with draws := s.draws + 1 } else s

/-! ### The error counters and bus-off (43) -/

/-- The change for one error type (43 R113). -/
def deltaOf (t : DeltaByType) : ErrorType → Delta
  | .none => t.none
  | .bit => t.bit
  | .form => t.form
  | .stuff => t.stuff
  | .ack => t.ack
  | .crc => t.crc
  | .other => t.other

/-- `ERR_DELTA(ev)` (43 R113). -/
def errDeltaOf (e : ErrDelta) : EvKind → Delta
  | .txOk => e.txOk
  | .rxOk => e.rxOk
  | .txErr t => deltaOf e.txErr t
  | .rxErr t => deltaOf e.rxErr t

/-- `clamp(c + delta, 0, CNT_MAX)` (43 R114): saturating, never wraps. -/
def clampCount (c : BitVec 8) (delta : Int) : BitVec 8 :=
  BitVec.ofNat 8 (min (max ((c.toNat : Int) + delta) 0) (cntMax : Int)).toNat

/-- `max(rec, tec)` (43 R114). -/
def State.worstCount (s : State) : Nat := max s.recCount.toNat s.tecCount.toNat

/-- `enterBusOff()` (43 R116). -/
def State.enterBusOff (s : State) (d : AbortDraw) : State := { s with busOff := true }.endAttempt .busOff d

/-- The counters after one bus event (43 R114). -/
def State.countError (s : State) (ev : EvKind) : State :=
  { s with
    recCount := clampCount s.recCount (errDeltaOf s.params.errDelta ev).dRec
    tecCount := clampCount s.tecCount (errDeltaOf s.params.errDelta ev).dTec }

/-- BUSOFF_TEC is reached (43 R114). -/
def State.tecForcesBusOff (s : State) : Bool :=
  match s.params.busOffTec with
  | some b => decide (b ≤ s.tecCount.toNat) && !s.busOff
  | none => false

/-- `errUpdate(ev)` (43 R114). -/
def State.errUpdate (s : State) (ev : EvKind) (d : AbortDraw) : State :=
  let s1 := s.countError ev
  let crossed := decide (s.worstCount < s.ewl.toNat) && decide (s.ewl.toNat ≤ s1.worstCount)
  let s2 := s1.setFlagIf crossed .errWarning
  if s2.tecForcesBusOff then s2.enterBusOff d else s2

/-! ### Acceptance and the receive FIFO (42) -/

/-- `match(flt, fr)` (42 R103). -/
def State.filterMatch (s : State) (flt : Filter) (fr : TxFrame) : Bool :=
  let typeOk :=
    match flt.maskType with
    | .stdOnly => !fr.ide
    | .extOnly => fr.ide
    | .both => true
  let width : BitVec 29 := if fr.ide then 0x1FFFFFFF else 0x7FF
  let mask := if s.params.maskOneCompares then flt.mask else ~~~flt.mask
  typeOk && ((fr.id ^^^ flt.id) &&& mask &&& width) == 0#29

/-- `accepted(fr)` (42 R104): some enabled filter matches. -/
def State.accepted (s : State) (fr : TxFrame) : Bool := s.filt.any fun flt => flt.en && s.filterMatch flt fr

/-- `rxState`'s code (42 R105): 0 Empty, 1 LessThanWarnLimit, 2 MoreThanWarnLimit, 3 Full. -/
def State.rxStateCode (s : State) : BitVec 2 :=
  if s.rx.length = 0 then 0
  else if s.rx.length = nrx then 3
  else if s.rx.length < s.afwl.toNat then 1
  else 2

/-- An accepted frame meets the FIFO (42 R110): stored, or an overflow under the policy. -/
def State.storeFrame (s : State) (e : RxFrame) : State :=
  if s.rx.length < nrx then
    ({ s with rx := s.rx ++ [e] }.setFlag .rxReceived).setFlagIf (decide (s.rx.length + 1 = s.afwl.toNat)) .rxAlmostFull
  else
    match s.rxPolicy with
    | .discardNew => s.setFlag .rxOverflow
    | .saveNew => { s.setFlag .rxOverflow with rx := s.rx.tail ++ [e] }.setFlag .rxReceived

/-! ### The TTC timer (44) -/

/-- `ttcTrigger()` (44 R131). -/
def State.ttcTrigger (s : State) : State :=
  match s.ttcCfg.trigType with
  | .immediate => s
  | .time => s
  | .singleShotTransmit => { s with released := true }
  | .transmitStart => { s with released := true }
  | .transmitStop => { s with released := false }

/-- The enable window of a single-shot release closes at `trigTime + tew + 1` (44 R130, first comparison). -/
def State.ttcWindowCloses (s : State) : State :=
  if s.ttcCfg.trigType = .singleShotTransmit ∧ s.released = true ∧ s.timer = s.ttcCfg.trigTime + s.ttcCfg.tew + 1 then
    { s with released := false }
  else s

/-- `ttcCompare()` (44 R130): the window's close, then the trigger, then the watch (60 R163). -/
def State.ttcCompare (s : State) : State :=
  let s1 := s.ttcWindowCloses
  let s2 := if s1.timer = s1.ttcCfg.trigTime then (s1.setFlag .ttcTrigger).ttcTrigger else s1
  s2.setFlagIf (decide (s2.timer = s2.ttcCfg.watchTime)) .ttcWatchTrigger

/-- `ttcRefReceived()` (44 R132). -/
def State.ttcRefReceived (s : State) : State := { s with timer := 0, prescCnt := 0 }

/-- A frame is a reference message for this block (42 R110 `isRef`, 44 R132). -/
def State.isReference (s : State) (fr : TxFrame) : Bool :=
  s.ttcEn && fr.id == s.ttcCfg.refId && fr.ide == s.ttcCfg.refIde && (s.accepted fr || !s.params.refNeedsAccept)

end Sys2Proof.Machine
end

