-- ==== Sys2Proof/Machine/Configure.lean ====
section
/-! DEFINITION. The mode, bit-timing, filter and reset commands (spec/40_config.md). -/

namespace Sys2Proof.Machine

/-- CFG_ENTER (40 R77): ends an attempt in progress and enters configuration state. The end of that attempt takes no
choice of the bus engine, because it honours no abort (D23, log 7). -/
def execCfgEnter (s : State) : Result :=
  .next ({ s.endAttempt .configEntry ⟨false⟩ with mode := .config }.respond .ok [])

/-- CFG_LEAVE (40 R78). -/
def execCfgLeave (s : State) : Result := .next ({ s with mode := .normal }.respond .ok [])

/-- SET_WORK_MODE (40 R79). -/
def execSetWorkMode (m : WorkMode) (s : State) : Result := .next ({ s with workMode := m }.respond .ok [])

/-- `bt[phase] <- t` (40 R80). -/
def State.setTiming (s : State) (p : Phase) (t : BitTiming) : State :=
  match p with
  | .slow => { s with btSlow := t }
  | .fast => { s with btFast := t }

/-- `bt[phase]` (10 R27). -/
def State.timing (s : State) : Phase → BitTiming
  | .slow => s.btSlow
  | .fast => s.btFast

/-- BT_WRITE (40 R80): only in Config, only a legal tuple. -/
def execBtWrite (p : Phase) (t : BitTiming) (s : State) : Result :=
  .next <|
    if s.mode ≠ .config then s.fail .configError
    else if s.timingLegal p t = false then s.fail .configError
    else (s.setTiming p t).respond .ok []

/-- BT_READ (40 R81). -/
def execBtRead (p : Phase) (s : State) : Result := .next (s.respond .ok [(s.timing p).word])

/-- FILTER_WRITE (40 R83): only in Config; the enable stays. -/
def execFilterWrite (index : BitVec 4) (mt : MaskType) (id mask : BitVec 29) (s : State) : Result :=
  .next <|
    if s.mode ≠ .config then s.fail .configError
    else if s.nfilt ≤ index.toNat then s.fail .configError
    else
      { s with
        filt := s.filt.modify index.toNat fun f => { f with id := id, mask := mask, maskType := mt } }.respond .ok []

/-- Filter `i`'s enable after FILTER_ENABLE (40 R84). -/
def enableSelected (sel : BitVec 16) (en : Bool) (filt : List Filter) : List Filter :=
  filt.mapIdx fun i f => if sel.getLsbD i then { f with en := en } else f

/-- `sel` names a filter that does not exist (40 R84). -/
def selectsAbsent (sel : BitVec 16) (nfilt : Nat) : Bool :=
  (List.range 16).any fun i => sel.getLsbD i && decide (nfilt ≤ i)

/-- FILTER_ENABLE (40 R84), in either state. -/
def execFilterEnable (sel : BitVec 16) (en : Bool) (s : State) : Result :=
  .next <|
    if selectsAbsent sel s.nfilt then s.fail .configError
    else { s with filt := enableSelected sel en s.filt }.respond .ok []

/-- The response words of a filter (40 R85, 30 R65). -/
def filterWords (f : Filter) : List Word :=
  [0#26 ++ f.maskType.code ++ 0#3 ++ bit1 f.en, 0#3 ++ f.id, 0#3 ++ f.mask]

/-- FILTER_READ (40 R85). -/
def execFilterRead (index : BitVec 4) (s : State) : Result :=
  .next <|
    match s.filt[index.toNat]? with
    | none => s.fail .configError
    | some f => s.respond .ok (filterWords f)

/-- RESET (40 R86): the reset state with every draw drawn again, then the response. -/
def execReset (s : State) : Result := .next (s.resetBlock.respond .ok [])

end Sys2Proof.Machine
end

