-- ==== Sys2Proof/Machine/ErrorState.lean ====
section
/-! DEFINITION. The error state machine's commands and events (spec/43_error.md). -/

namespace Sys2Proof.Machine

/-- ERR_SET_WARN_LIMIT (43 R119). -/
def execErrSetWarnLimit (l : BitVec 8) (s : State) : Result :=
  .next <| if l.toNat < 1 then s.fail .configError else { s with ewl := l }.respond .ok []

/-- The first word of ERR_READ (43 R120). -/
def State.errorWord (s : State) : Word :=
  0#6 ++ s.alc ++ s.lastErrorType.code ++ bit1 s.errorPassive ++ bit1 s.busOff ++ s.tecCount ++ s.recCount

/-- ERR_READ (43 R120). -/
def execErrRead (s : State) : Result := .next (s.respond .ok [s.errorWord, 0#24 ++ s.ewl])

/-- ERR_FORCE_BUSOFF (43 R121): needs the test work mode. -/
def execErrForceBusOff (s : State) : Result :=
  .next <|
    if s.workMode ≠ .test then s.fail .configError
    else (if s.busOff then s else s.countDraw.enterBusOff (Config.abortDraw s.draws)).respond .ok []

/-- ERR_CLEAR_COUNTERS (43 R122): needs the test work mode and bus-off. -/
def execErrClearCounters (s : State) : Result :=
  .next <|
    if s.workMode ≠ .test then s.fail .configError
    else if s.busOff = false then s.fail .configError
    else { s with recCount := 0, tecCount := 0 }.respond .ok []

/-- The precondition of EV_BUS_OFF (43 R117). -/
def canBusOff (s : State) : Bool := s.mode == .normal && !s.busOff

/-- EV_BUS_OFF (43 R117). -/
def evBusOff (d : AbortDraw) (s : State) : State := s.enterBusOff d

/-- EV_BUS_OFF_RECOVER (43 R118); its precondition is `busOff`. -/
def evBusOffRecover (s : State) : State := { s with busOff := false, recCount := 0, tecCount := 0 }

end Sys2Proof.Machine
end

