-- ==== Sys2Proof/Machine/Receive.lean ====
section
/-! DEFINITION. The receive FIFO's commands and events (spec/42_receive.md). -/

namespace Sys2Proof.Machine

/-- RX_SET_CONFIG (42 R106). -/
def execRxSetConfig (a : BitVec 4) (p : RxPolicy) (s : State) : Result :=
  .next <| if afwlLegal a = false then s.fail .configError else { s with afwl := a, rxPolicy := p }.respond .ok []

/-- RX_PEEK (42 R107): the oldest frame, not removed. -/
def execRxPeek (s : State) : Result :=
  .next <|
    match s.rx with
    | [] => s.fail .empty
    | e :: _ => s.respond .ok (rxFrameWords e)

/-- RX_RELEASE (42 R108): the oldest frame goes, and RX_OVERFLOW with it. A release of a frame that was not peeked takes
its effect too, though 46 R156 lists the peek among the host's duties (DESIGN CHOICE, log 18). -/
def execRxRelease (s : State) : Result :=
  .next <|
    match s.rx with
    | [] => s.fail .empty
    | _ :: rest => ({ s with rx := rest }.clearFlag .rxOverflow).respond .ok []

/-- The status word of the receive FIFO (42 R109). -/
def State.rxStatusWord (s : State) : Word :=
  0#20 ++ bit1 (s.flag .rxOverflow) ++ bit1 s.rxPolicy.bit ++ s.afwl ++ s.rxStateCode ++ BitVec.ofNat 4 s.rx.length

/-- RX_STATUS_READ (42 R109). -/
def execRxStatusRead (s : State) : Result := .next (s.respond .ok [s.rxStatusWord])

/-- The node takes part in receptions: Normal and not in bus-off (42 R110, R111). -/
def State.receiving (s : State) : Bool := s.mode == .normal && !s.busOff

/-- The precondition of EV_RX_FRAME(fr, et) (42 R110): the bus engine delivers only well-formed frames, whose data has
its length (00 R15, R18; log 12). -/
def canRxFrame (fr : TxFrame) (s : State) : Bool := s.receiving && fr.wellFormed && fr.lengthOk

/-- The entry a received frame makes in the FIFO; `cycleTime` is the timer before the frame can reset it (44 R133). -/
def State.rxEntry (s : State) (fr : TxFrame) (et : ErrorType) : RxFrame := ⟨fr, et, if s.ttcEn then s.timer else 0⟩

/-- EV_RX_FRAME(fr, et) (42 R110). -/
def evRxFrame (fr : TxFrame) (et : ErrorType) (d : AbortDraw) (s : State) : State :=
  let s1 := s.errUpdate .rxOk d
  let s2 := if s.accepted fr then s1.storeFrame (s.rxEntry fr et) else s1
  if s.isReference fr then s2.ttcRefReceived else s2

/-- The precondition of EV_RX_ERROR(t) (42 R111). -/
def canRxError (t : ErrorType) (s : State) : Bool := s.receiving && t != .none

/-- EV_RX_ERROR(t) (42 R111). -/
def evRxError (t : ErrorType) (d : AbortDraw) (s : State) : State :=
  ({ s with lastErrorType := t }.setFlag .busError).errUpdate (.rxErr t) d

end Sys2Proof.Machine
end

