-- ==== Sys2Proof/Machine/Status.lean ====
section
/-! DEFINITION. The status and interrupt commands (spec/45_status.md). -/

namespace Sys2Proof.Machine

/-- The word of STATUS_READ (45 R137). -/
def State.statusWord (s : State) : Word := 0#2 ++ s.ie ++ 0#2 ++ s.view

/-- STATUS_READ (45 R137): reading clears nothing. -/
def execStatusRead (s : State) : Result := .next (s.respond .ok [s.statusWord])

/-- STATUS_CLEAR (45 R138): the latched flags named, but never RX_OVERFLOW. -/
def execStatusClear (mask : BitVec 14) (s : State) : Result :=
  .next ({ s with flags := s.flags &&& ~~~(mask &&& clearable) }.respond .ok [])

/-- INT_ENABLE (45 R139). -/
def execIntEnable (mask : BitVec 14) (en : Bool) (s : State) : Result :=
  .next ({ s with ie := setMasked s.ie mask en }.respond .ok [])

end Sys2Proof.Machine
end

