-- ==== Sys2Proof/Machine/Transmit.lean ====
section
/-! DEFINITION. The transmit scheduler's commands and events (spec/41_transmit.md). Each event is a precondition and an
effect; an event whose precondition is false has no step (spec/00_scope.md R12). -/

namespace Sys2Proof.Machine

/-- SET_TX_OPTIONS (41 R92). -/
def execSetTxOptions (o : TxOptions) (s : State) : Result := .next ({ s with txOpt := o }.respond .ok [])

/-- The slot a TX_LOAD writes (41 R93). -/
def State.loadedSlot (s : State) (f : TxFrame) : Slot := ⟨.queued, f, s.nextSeq, false⟩

/-- TX_LOAD's resource check and action (41 R93, R94). -/
def State.load (s : State) (buf : TxBuffer) (f : TxFrame) : State :=
  match buf with
  | .ptb =>
    if s.ptb.isEmpty then { s with ptb := s.loadedSlot f, nextSeq := s.nextSeq + 1 }.respond .ok []
    else s.fail .bufferFull
  | .stb =>
    match s.stbTarget with
    | none => s.fail .bufferFull
    | some k =>
      { s with
        stb := s.stb.set k (s.loadedSlot f), fillPtr := (k + 1) % s.nstb, nextSeq := s.nextSeq + 1 }.respond .ok []

/-- TX_LOAD (41 R93): only in Normal, only a well-formed frame, only into a free slot. -/
def execTxLoad (buf : TxBuffer) (f : TxFrame) (s : State) : Result :=
  .next <|
    if s.mode ≠ .normal then s.fail .configError
    else if f.wellFormed = false then s.fail .configError
    else s.load buf f

/-- TX_ENABLE (41 R95): only in Normal; enabling an empty buffer changes nothing. -/
def execTxEnable (t : TxSelect) (s : State) : Result :=
  .next <|
    if s.mode ≠ .normal then s.fail .configError
    else
      match t with
      | .ptb => (if s.ptb.isEmpty then s else { s with ptbEn := true }).respond .ok []
      | .stbOne => (if s.stb.all Slot.isEmpty then s else { s with stbEn := .one }).respond .ok []
      | .stbAll => (if s.stb.all Slot.isEmpty then s else { s with stbEn := .all }).respond .ok []

/-- A TX_ABORT of the selected buffers removes the frame of slot `k`: it is Queued (41 R96). -/
def State.abortRemoves (s : State) (ptb stb : Bool) (k : Nat) : Bool :=
  (if k = 0 then ptb else stb) && (s.slot k).isQueued

/-- A TX_ABORT of the selected buffers removes some frame (41 R96 `any`). -/
def State.abortRemovesAny (s : State) (ptb stb : Bool) : Bool :=
  (ptb && s.ptb.isQueued) || (stb && s.stb.any Slot.isQueued)

/-- The slots after a TX_ABORT, with `ttcSlotEmptied` of every slot it empties (41 R96, 44 R125). -/
def State.abortSlots (s : State) (ptb stb : Bool) : State :=
  { s with
    ptb := if ptb then s.ptb.abort else s.ptb
    stb := if stb then s.stb.map Slot.abort else s.stb
    released := s.released && !s.abortRemoves ptb stb s.ttcCfg.slotPtr.toNat }

/-- TX_ABORT (41 R96). -/
def execTxAbort (ptb stb : Bool) (s : State) : Result :=
  let s1 := s.abortSlots ptb stb
  let s2 := if ptb && s1.ptb.isEmpty then { s1 with ptbEn := false } else s1
  .next ((s2.stbBook.setFlagIf (s.abortRemovesAny ptb stb) .txAborted).respond .ok [])

/-- The status word of the transmit buffers (41 R97). -/
def State.txStatusWord (s : State) : Word :=
  0#9 ++ bit1 s.busy ++ BitVec.ofNat 8 s.fillPtr ++ bit1 (decide (s.stbFree = 0))
    ++ BitVec.ofNat 8 (s.stb.countP fun sl => !sl.isEmpty) ++ s.stbEn.code ++ bit1 s.ptbEn ++ s.ptb.st.code

/-- TX_STATUS_READ (41 R97). -/
def execTxStatusRead (s : State) : Result := .next (s.respond .ok [s.txStatusWord])

/-- The precondition of EV_TX_START (41 R98). -/
def canTxStart (s : State) : Bool := s.mode == .normal && !s.busOff && !s.busy && s.select.isSome

/-- EV_TX_START (41 R98): the scheduler's choice goes on the bus. -/
def evTxStart (s : State) : State :=
  match s.select with
  | some k => s.modifySlot k Slot.started
  | none => s

/-- The end of slot `k`'s frame by success (41 R99), less the counters. -/
def State.txCompleted (s : State) (k : Nat) : State :=
  let s1 := (s.modifySlot k Slot.emptied).enableEnds k
  (s1.setFlag (if k = 0 then .txPtbDone else .txStbDone)).stbBook.ttcSlotEmptied k

/-- EV_TX_SUCCESS (41 R99); its precondition is `busy`. No attempt is left for `errUpdate` to end, so the draw is not
used. -/
def evTxSuccess (s : State) : State :=
  match s.txSlot with
  | some k => (s.txCompleted k).errUpdate .txOk default
  | none => s

/-- EV_TX_ARB_LOST(pos) (41 R100); its precondition is `busy`. -/
def evTxArbLost (pos : BitVec 5) (d : AbortDraw) (s : State) : State :=
  ({ s with alc := pos }.setFlag .arbLost).endAttempt .arbLost d

/-- The precondition of EV_TX_ERROR(t) (41 R101): `t` is a fault. -/
def canTxError (t : ErrorType) (s : State) : Bool := s.busy && t != .none

/-- EV_TX_ERROR(t) (41 R101): the attempt ends before the counters change. -/
def evTxError (t : ErrorType) (d : AbortDraw) (s : State) : State :=
  (({ s with lastErrorType := t }.setFlag .busError).endAttempt .txError d).errUpdate (.txErr t) d

end Sys2Proof.Machine
end

