-- ==== Sys2Proof/Machine/Ttc.lean ====
section
/-! DEFINITION. The TTC scheduler's commands and the clock tick (spec/44_ttc.md). -/

namespace Sys2Proof.Machine

/-- The checks of TTC_CONFIG (44 R126). -/
def State.ttcLegal (s : State) (c : TtcConfig) : Bool :=
  decide (c.slotPtr.toNat ≤ s.nstb) && s.params.ttcPrescOk.contains c.presc
    && (c.refIde || decide (c.refId.toNat < 2 ^ 11))

/-- The release latch after a TTC_CONFIG write (44 R126). -/
def State.releaseAfterConfig (s : State) (t : TrigType) : Bool :=
  match t with
  | .transmitStop => s.released
  | .immediate | .time | .singleShotTransmit | .transmitStart => false

/-- TTC_CONFIG (44 R126): a TransmitStop write keeps the release, any other write ends it. -/
def execTtcConfig (c : TtcConfig) (s : State) : Result :=
  .next <|
    if s.ttcLegal c = false then s.fail .configError
    else { s with ttcCfg := c, released := s.releaseAfterConfig c.trigType }.respond .ok []

/-- TTC_ENABLE (44 R127): the rising edge restarts the timer, disabling freezes it. -/
def execTtcEnable (en : Bool) (s : State) : Result :=
  .next <|
    State.respond
      (if en then
        if s.ttcEn then s else { s with ttcEn := true, timer := 0, prescCnt := 0, released := false }
      else { s with ttcEn := false, released := false })
      .ok []

/-- The word of TTC_READ (44 R128). -/
def State.ttcWord (s : State) : Word := 0#14 ++ bit1 s.released ++ bit1 s.ttcEn ++ s.timer

/-- TTC_READ (44 R128). -/
def execTtcRead (s : State) : Result := .next (s.respond .ok [s.ttcWord])

/-- EV_CLK_TICK (44 R129); it has no precondition. -/
def evClkTick (s : State) : State :=
  if s.ttcEn = false then s
  else if s.ttcCfg.presc.toNat ≤ s.prescCnt.toNat + 1 then
    { s with prescCnt := 0, timer := s.timer + 1 }.ttcCompare
  else { s with prescCnt := s.prescCnt + 1 }

end Sys2Proof.Machine
end

