-- ==== Sys2Proof/Machine/Dispatch.lean ====
section
/-! DEFINITION. One arm per command of spec/opcode_table.json, each a direct call of its meaning. -/

namespace Sys2Proof.Machine

def exec (i : Instr) (s : State) : Host.Outcome State Fault Refusal :=
  match i with
  | .cfgEnter => Sys2Proof.Machine.execCfgEnter s
  | .cfgLeave => Sys2Proof.Machine.execCfgLeave s
  | .setWorkMode mode => Sys2Proof.Machine.execSetWorkMode mode s
  | .setTxOptions opt => Sys2Proof.Machine.execSetTxOptions opt s
  | .btWrite phase bt => Sys2Proof.Machine.execBtWrite phase bt s
  | .btRead phase => Sys2Proof.Machine.execBtRead phase s
  | .filterWrite index maskType id mask => Sys2Proof.Machine.execFilterWrite index maskType id mask s
  | .filterEnable sel en => Sys2Proof.Machine.execFilterEnable sel en s
  | .filterRead index => Sys2Proof.Machine.execFilterRead index s
  | .reset => Sys2Proof.Machine.execReset s
  | .txLoad buf frame => Sys2Proof.Machine.execTxLoad buf frame s
  | .txEnable tsel => Sys2Proof.Machine.execTxEnable tsel s
  | .txAbort ptb stb => Sys2Proof.Machine.execTxAbort ptb stb s
  | .txStatusRead => Sys2Proof.Machine.execTxStatusRead s
  | .rxSetConfig afwl policy => Sys2Proof.Machine.execRxSetConfig afwl policy s
  | .rxPeek => Sys2Proof.Machine.execRxPeek s
  | .rxRelease => Sys2Proof.Machine.execRxRelease s
  | .rxStatusRead => Sys2Proof.Machine.execRxStatusRead s
  | .errSetWarnLimit ewl => Sys2Proof.Machine.execErrSetWarnLimit ewl s
  | .errRead => Sys2Proof.Machine.execErrRead s
  | .errForceBusOff => Sys2Proof.Machine.execErrForceBusOff s
  | .errClearCounters => Sys2Proof.Machine.execErrClearCounters s
  | .ttcConfig cfg => Sys2Proof.Machine.execTtcConfig cfg s
  | .ttcEnable en => Sys2Proof.Machine.execTtcEnable en s
  | .ttcRead => Sys2Proof.Machine.execTtcRead s
  | .statusRead => Sys2Proof.Machine.execStatusRead s
  | .statusClear mask => Sys2Proof.Machine.execStatusClear mask s
  | .intEnable mask en => Sys2Proof.Machine.execIntEnable mask en s

end Sys2Proof.Machine
end

