-- ==== Sys2Proof/Machine/Invariant.lean ====
section
/-! DEFINITION. The invariants of spec/10_state.md R46 as checks on a state, and the two reasons a state gets no step
(spec/00_scope.md R22, spec/60_exceptions.md R161). -/

namespace Sys2Proof.Machine

/-- Every slot, the PTB first (00 R14). -/
def State.slots (s : State) : List Slot := s.ptb :: s.stb

/-- I1: at most one slot is Transmitting. -/
def State.inv1 (s : State) : Bool := decide (s.slots.countP Slot.isTransmitting ≤ 1)

/-- I2: `busy` implies Normal and no bus-off. -/
def State.inv2 (s : State) : Bool := !s.busy || (s.mode == .normal && !s.busOff)

/-- I3: the FIFO holds at most 8 frames. -/
def State.inv3 (s : State) : Bool := decide (s.rx.length ≤ Config.nrx)

/-- I4: RX_OVERFLOW implies a full FIFO. -/
def State.inv4 (s : State) : Bool := !s.flag .rxOverflow || decide (s.rx.length = Config.nrx)

/-- I5: the PTB is enabled only while it holds a frame. -/
def State.inv5 (s : State) : Bool := !s.ptbEn || !s.ptb.isEmpty

/-- I6: the STB is enabled only while it holds a frame. -/
def State.inv6 (s : State) : Bool := s.stbEn == .off || s.stb.any fun sl => !sl.isEmpty

/-- I7: only a Transmitting slot carries an abort request. -/
def State.inv7 (s : State) : Bool := s.slots.all fun sl => !sl.abortReq || sl.isTransmitting

/-- The load stamps of the slots that hold a frame. -/
def State.stamps (s : State) : List Nat := (s.slots.filter fun sl => !sl.isEmpty).map Slot.seq

/-- I8: the stamps of the non-Empty slots are pairwise distinct and below `nextSeq`. -/
def State.inv8 (s : State) : Bool := decide s.stamps.Nodup && s.stamps.all fun q => decide (q < s.nextSeq)

/-- I9: both counters are at most CNT_MAX; `errorPassive` is derived, so its half holds by definition. -/
def State.inv9 (s : State) : Bool := decide (s.recCount.toNat ≤ Config.cntMax) && decide (s.tecCount.toNat ≤ Config.cntMax)

/-- I10: every non-Empty slot holds a well-formed frame. -/
def State.inv10 (s : State) : Bool := s.slots.all fun sl => sl.isEmpty || sl.frame.wellFormed

/-- The invariants I2 to I10 of 10 R46. -/
def State.invRest (s : State) : Bool :=
  s.inv2 && s.inv3 && s.inv4 && s.inv5 && s.inv6 && s.inv7 && s.inv8 && s.inv9 && s.inv10

/-- All of 10 R46. -/
def State.inv (s : State) : Bool := s.inv1 && s.invRest

/-- Why a state gets no step: a second Transmitting slot is refused (00 R22), any other broken invariant is a fault
(60 R161). -/
def State.stopOf (s : State) : Option Result :=
  if s.inv1 = false then some (.refused .secondTransmitting)
  else if s.invRest = false then some (.fault .invariantBroken)
  else none

end Sys2Proof.Machine
end

