-- ==== Sys2Proof/Machine/Port.lean ====
section
/-! DEFINITION. What one input does: a command transaction at the port (spec/30_encoding.md R69), an event of the bus
engine or the clock (spec/00_scope.md R12), a hardware reset (spec/70_reset_and_hazards.md R175), or a breach of a host
duty (spec/46_host_procedures.md R156). -/

namespace Sys2Proof.Machine

/-- A command transaction: ILLEGAL where the decoder rejects it (30 R69 steps 1 to 3), else the command's meaning. -/
def runTransaction (w0 : Word) (rest : List Word) (s : State) : Result :=
  match decode (w0 :: rest) with
  | .error _ => .next (s.fail .illegal)
  | .ok i => exec i s

/-- The precondition of an event (60 R167). -/
def eventCanOccur (e : Event) (s : State) : Bool :=
  match e with
  | .txStart => canTxStart s
  | .txSuccess => s.busy
  | .txArbLost _ _ => s.busy
  | .txError t _ => canTxError t s
  | .rxFrame fr _ _ => canRxFrame fr s
  | .rxError t _ => canRxError t s
  | .busOff _ => canBusOff s
  | .busOffRecover => s.busOff
  | .clkTick => true

/-- The effect of an event (41 to 44). -/
def eventEffect (e : Event) (s : State) : State :=
  match e with
  | .txStart => evTxStart s
  | .txSuccess => evTxSuccess s
  | .txArbLost pos d => evTxArbLost pos d s
  | .txError t d => evTxError t d s
  | .rxFrame fr et d => evRxFrame fr et d s
  | .rxError t d => evRxError t d s
  | .busOff d => evBusOff d s
  | .busOffRecover => evBusOffRecover s
  | .clkTick => evClkTick s

/-- An event: it has a step only where its precondition holds (00 R12). -/
def runEvent (e : Event) (s : State) : Result :=
  if eventCanOccur e s then .next (eventEffect e s) else .refused .eventCannotOccur

/-- What an input does to a state. -/
def runInput (i : Input) (s : State) : Result :=
  match i with
  | .command w0 rest => runTransaction w0 rest s
  | .event e => runEvent e s
  | .hardwareReset => .next s.resetBlock
  | .hostBreach b => .refused (.hostDuty b)

/-- One input's step: none from a state the spec leaves unreachable (00 R22, 60 R161). -/
def takeInput (i : Input) (s : State) : Result :=
  match s.stopOf with
  | some r => r
  | none => runInput i s

/-- The next input and the state it meets: the first listed one, or, with none listed, a free choice of the agents
(46 R157, log 1). -/
def nextInput (s : State) : Input × State :=
  match s.inputs with
  | i :: rest => (i, { s with inputs := rest })
  | [] => (Config.agentInput s.draws, { s with draws := s.draws + 1 })

/-- The input of a transaction of words. -/
def commandInput (ws : List Word) : Input := .command (ws.headD 0) ws.tail

/-- List a transaction in front of the inputs to come. -/
def State.offer (s : State) (ws : List Word) : State := { s with inputs := commandInput ws :: s.inputs }

end Sys2Proof.Machine
end

