-- ==== Sys2Proof/Machine/Step.lean ====
section
/-! DEFINITION. One step of the machine: the next input acts (spec/00_scope.md R6). -/

namespace Sys2Proof.Machine

/-- One atomic step of one agent (00 R6, 20 R52). -/
def step (s : State) : Host.Outcome State Fault Refusal := takeInput (nextInput s).1 (nextInput s).2

/-- The state in which the very next step receives the transaction whose bits are `w` (log 1, log 17). -/
def State.withFetchWord (s : State) (nbits w : Nat) : State := s.offer (tableTransaction nbits w)

end Sys2Proof.Machine
end

