-- ==== Sys2Proof/Machine/HostProcedures.lean ====
section
/-! DEFINITION. The driver calls as host programs of block commands (spec/46_host_procedures.md). They are software, not
hardware: they write whole transactions to the port and read responses, and between two of their commands the other
agents, another host context among them, may take any steps (R145, R155, R157). The spec gives the calls' arguments no
widths; they have the widths of the command fields they go into (DESIGN CHOICE, log 19). -/

namespace Sys2Proof.Machine

/-- A driver call under way (46 R145): the block, and for each command still to come what the other agents do before
it. A missing entry means they do nothing (log 14). -/
structure HostRun where
  block : State
  others : List (List Input)
  deriving DecidableEq, Repr

/-- The results of the driver calls (46, head of the file; 00 R21). -/
inductive HostResult where
  | ok | configurationError | errorTimeout | errorBufferFull
  deriving DecidableEq, Repr

/-- Inputs one after the other; none where one of them has no step. -/
def runInputs : List Input → State → Option State
  | [], s => some s
  | i :: is, s =>
    match takeInput i s with
    | .next t => runInputs is t
    | .fault _ => none
    | .refused _ => none

/-- Write one transaction and read its response, after what the others do before it. None where an input of the others
has no step. -/
def HostRun.issue (h : HostRun) (ws : List Word) : Option (Response × HostRun) :=
  match runInputs (h.others.headD [] ++ [commandInput ws]) h.block with
  | some s => some (s.resp, ⟨s, h.others.tail⟩)
  | none => none

/-- `cmd(...)` of 46. -/
def HostRun.cmd (h : HostRun) (i : Instr) : Option (Response × HostRun) := h.issue (encode i)

/-- Issue commands in order; whether every one returned OK. -/
def HostRun.cmds : List Instr → HostRun → Option (Bool × HostRun)
  | [], h => some (true, h)
  | i :: is, h => do
    let (r, h) ← h.cmd i
    let (ok, h) ← HostRun.cmds is h
    return (r.code == .ok && ok, h)

/-- `Ok` if a command succeeded, else `ConfigurationError`. -/
def resultOf (ok : Bool) : HostResult := if ok then .ok else .configurationError

/-- A filter as the driver is given it: "AcceptanceFilter" less its enable (46 R147), with the widths of FILTER_WRITE's
fields (log 19). -/
structure HostFilter where
  id : BitVec 29
  idMask : BitVec 29
  maskType : MaskType
  deriving DecidableEq, Repr

/-- The filters a selection names, ascending. -/
def selectedFilters (sel : BitVec 16) : List Nat := (List.range 16).filter fun i => sel.getLsbD i

/-- The host-side check of a selection: as many filters as bits, and none that does not exist (46 R141, R147). -/
def selectionOk (s : State) (sel : BitVec 16) (filters : List HostFilter) : Bool :=
  (selectedFilters sel).length == filters.length && !selectsAbsent sel s.nfilt

/-- FILTER_WRITEs one after the other, stopping at the first that fails (46 R147). -/
def writeFilters : List (Nat × HostFilter) → HostRun → Option (HostResult × HostRun)
  | [], h => some (.ok, h)
  | (i, f) :: rest, h => do
    let (r, h) ← h.cmd (.filterWrite (BitVec.ofNat 4 i) f.maskType f.id f.idMask)
    if r.code = .ok then writeFilters rest h else return (.configurationError, h)

/-- `ConfigureFilters(selection, filters[])` (46 R147); a selection has 16 bits (DESIGN CHOICE, log 19). -/
def configureFilters (sel : BitVec 16) (filters : List HostFilter) (h : HostRun) : Option (HostResult × HostRun) :=
  if selectionOk h.block sel filters then writeFilters ((selectedFilters sel).zip filters) h
  else some (.configurationError, h)

/-- `EnableFilters(selection, enabled)` (46 R148). -/
def enableFilters (sel : BitVec 16) (en : Bool) (h : HostRun) : Option (Response × HostRun) :=
  h.cmd (.filterEnable sel en)

/-- The argument of `Init` (46 R141). The rule gives its parts no widths; they have those of the command fields they go
into, so a limit of 16 or 256, a selection bit 16 or another work mode cannot be passed (DESIGN CHOICE, log 19). -/
structure InitConfig where
  workMode : WorkMode
  btSlow : BitTiming
  btFast : Option BitTiming
  txOpt : TxOptions
  afwl : BitVec 4
  rxPolicy : RxPolicy
  ewl : BitVec 8
  filterSel : BitVec 16
  filters : List HostFilter
  ie : BitVec 14
  deriving DecidableEq, Repr

/-- The validation `Init` makes before any command (46 R141). -/
def initValid (s : State) (c : InitConfig) : Bool :=
  s.timingLegal .slow c.btSlow && (c.btFast.map (s.timingLegal .fast)).getD true && afwlLegal c.afwl
    && decide (1 ≤ c.ewl.toNat) && selectionOk s c.filterSel c.filters

/-- The selection of every filter there is: bits 0 to NFILT-1 (46 R141 `sel=all`, 40 R84). -/
def allFilters (nfilt : Nat) : BitVec 16 := BitVec.ofNat 16 (2 ^ min nfilt 16 - 1)

/-- The commands of `Init` before its filters (46 R141). -/
def initCommands (s : State) (c : InitConfig) : List Instr :=
  [.cfgEnter, .setWorkMode c.workMode, .btWrite .slow c.btSlow]
    ++ (c.btFast.map fun b => Instr.btWrite .fast b).toList
    ++ [.setTxOptions c.txOpt, .rxSetConfig c.afwl c.rxPolicy, .errSetWarnLimit c.ewl, .intEnable 0x3FFF false,
        .intEnable c.ie true, .filterEnable (allFilters s.nfilt) false]

/-- `Init(config)` (46 R141). -/
def initDriver (c : InitConfig) (h : HostRun) : Option (HostResult × HostRun) :=
  if initValid h.block c then do
    let (ok1, h) ← HostRun.cmds (initCommands h.block c) h
    let (r, h) ← configureFilters c.filterSel c.filters h
    let (r2, h) ← enableFilters c.filterSel true h
    let (r3, h) ← h.cmd .cfgLeave
    return (resultOf (ok1 && r == .ok && r2.code == .ok && r3.code == .ok), h)
  else some (.configurationError, h)

/-- `DeInit()` (46 R142). -/
def deInitDriver (h : HostRun) : Option (HostResult × HostRun) := do
  let (_, h) ← h.cmd .reset
  return (.ok, h)

/-- `SetWorkMode(mode)` (46 R143): the mode is any code of the field
(log 19), and an ILLEGAL answer is not reported. -/
def setWorkModeDriver (mode : BitVec 2) (h : HostRun) : Option HostRun := do
  let (_, h) ← h.issue [Opcode.setWorkMode.code ++ 0#22 ++ mode]
  return h

/-- The STB policy of a `Transmit` (46 R144). -/
inductive StbPolicy where
  | one | all
  deriving DecidableEq, Repr

/-- The completion flag a `Transmit` polls (46 R144 `done`). -/
def doneFlag : TxBuffer → Flag
  | .ptb => .txPtbDone
  | .stb => .txStbDone

/-- The selection a `Transmit` enables (46 R144). -/
def transmitSelect : TxBuffer → StbPolicy → TxSelect
  | .ptb, _ => .ptb
  | .stb, .one => .stbOne
  | .stb, .all => .stbAll

/-- The flag view in a STATUS_READ response: `[13:0]` of its word (45 R137). -/
def viewOf (r : Response) : BitVec 14 := (field (r.words.headD 0) 0 14)

/-- The polling loop of `Transmit`: one STATUS_READ an iteration (46 R144, R145). -/
def pollDone (f : Flag) : Nat → HostRun → Option (HostResult × HostRun)
  | 0, h => some (.errorTimeout, h)
  | n + 1, h => do
    let (r, h) ← h.cmd .statusRead
    if (viewOf r).getLsbD f.bit then
      let (_, h) ← h.cmd (.statusClear f.mask)
      return (.ok, h)
    else pollDone f n h

/-- `Transmit(frame, bufferType, stbPolicy, timeoutIters)` (46 R144). -/
def transmitDriver (f : TxFrame) (buf : TxBuffer) (pol : StbPolicy) (iters : Nat) (h : HostRun) :
    Option (HostResult × HostRun) := do
  let (_, h) ← h.cmd (.statusClear (doneFlag buf).mask)
  let (r, h) ← h.cmd (.txLoad buf f)
  if r.code = .bufferFull then return (.errorBufferFull, h)
  else if r.code ≠ .ok then return (.configurationError, h)
  else
    let (_, h) ← h.cmd (.txEnable (transmitSelect buf pol))
    if iters = 0 then return (.ok, h) else pollDone (doneFlag buf) iters h

/-- The frame an RX_PEEK response holds (46 R146 `decode(words)`, 30 R64). -/
def rxFrameOfWords (ws : List Word) : RxFrame where
  frame := TxFrame.ofWords (ws.getD 0 0) (ws.getD 1 0) (ws.drop 2)
  errorType := (ErrorType.ofCode (field (ws.getD 1 0) 6 3)).getD .none
  cycleTime := field (ws.getD 1 0) 16 16

/-- `Receive(maxFrames)` (46 R146): peek, copy, release, until EMPTY or `maxFrames`. -/
def receiveDriver : Nat → HostRun → Option (List RxFrame × HostRun)
  | 0, h => some ([], h)
  | n + 1, h => do
    let (r, h) ← h.cmd .rxPeek
    if r.code = .empty then return ([], h)
    else
      let (_, h) ← h.cmd .rxRelease
      let (out, h) ← receiveDriver n h
      return (rxFrameOfWords r.words :: out, h)

/-- `GetStatus(flags)` (46 R149). -/
def getStatusDriver (flags : BitVec 14) (h : HostRun) : Option (Bool × HostRun) := do
  let (r, h) ← h.cmd .statusRead
  return (viewOf r &&& flags != 0, h)

/-- `ClearStatus(flags)` (46 R150): the overflow flag additionally needs a release. -/
def clearStatusDriver (flags : BitVec 14) (h : HostRun) : Option HostRun := do
  let (_, h) ← h.cmd (.statusClear (flags &&& ~~~Flag.rxOverflow.mask))
  if flags.getLsbD Flag.rxOverflow.bit then
    let (_, h) ← h.cmd .rxRelease
    return h
  else return h

/-- `IntCmd(flags, enabled)` (46 R151). -/
def intCmdDriver (flags : BitVec 14) (en : Bool) (h : HostRun) : Option HostRun := do
  let (_, h) ← h.cmd (.intEnable flags en)
  return h

/-- `ConfigureTTC(config)` (46 R152). -/
def configureTtcDriver (c : TtcConfig) (h : HostRun) : Option (HostResult × HostRun) := do
  let (r, h) ← h.cmd (.ttcConfig c)
  return (resultOf (r.code == .ok), h)

/-- `EnableTTC(enabled)` (46 R153). -/
def enableTtcDriver (en : Bool) (h : HostRun) : Option HostRun := do
  let (_, h) ← h.cmd (.ttcEnable en)
  return h

/-- `AbortTransmit(bufferSelection)` (46 R154). -/
def abortTransmitDriver (ptb stb : Bool) (h : HostRun) : Option HostRun := do
  let (_, h) ← h.cmd (.txAbort ptb stb)
  return h

end Sys2Proof.Machine
end

