-- ==== Sys2Proof/Safety.lean ====
section
/-! DEFINITION. The terms claims are stated in: the legal states (spec/10_state.md), what a command may leave changed,
and what it means that an input has no step. -/

namespace Sys2Proof.Machine

/-- A frame as the spec types it: well-formed (00 R18), its data of the length its header says (00 R15). -/
def frameLegal (f : TxFrame) : Bool := f.wellFormed && f.lengthOk

/-- Every field holds a value of the type spec/10_state.md gives it: the fill pointer names an STB slot (R37), the
limits are in range (R30, R31), the TTC configuration is one TTC_CONFIG accepts (R32), and every frame held has the
data length of its header (00 R15, R17). -/
def State.typed (s : State) : Bool :=
  decide (s.fillPtr < s.nstb) && afwlLegal s.afwl && decide (1 ≤ s.ewl.toNat) && s.ttcLegal s.ttcCfg
    && s.slots.all (fun sl => sl.isEmpty || sl.frame.lengthOk) && s.rx.all (fun e => frameLegal e.frame)

/-- A legal state: typed, and within the invariants of 10 R46. -/
def State.legal (s : State) : Bool := s.typed && s.inv

/-- `t` differs from `s` in the response at most (20 R53, 60 R158). -/
def OnlyResp (s t : State) : Prop := t = { s with resp := t.resp }

/-- The input resets the block: the hardware reset, or a transaction that decodes to RESET (70 R175). -/
def resets : Input → Bool
  | .hardwareReset => true
  | .command w0 rest => (decode (w0 :: rest)).toOption == some .reset
  | .event _ => false
  | .hostBreach _ => false

/-- The input is a transaction that decodes to RX_RELEASE. -/
def releases : Input → Bool
  | .command w0 rest => (decode (w0 :: rest)).toOption == some .rxRelease
  | .hardwareReset => false
  | .event _ => false
  | .hostBreach _ => false

/-- A parameter set under which a block can be reset at all: some prescaler is legal (44 R126). -/
def paramsUsable (p : Config.Params) : Bool := !p.ttcPrescOk.isEmpty

/-- The input is a tick of the controller clock. -/
def isTick : Input → Bool
  | .event .clkTick => true
  | .event .txStart | .event .txSuccess | .event (.txArbLost _ _) | .event (.txError _ _) | .event (.rxFrame _ _ _)
  | .event (.rxError _ _) | .event (.busOff _) | .event .busOffRecover => false
  | .command _ _ | .hardwareReset | .hostBreach _ => false

/-- The transaction is none of the three that write the TTC state: TTC_CONFIG, TTC_ENABLE, RESET (44, 70 R173). -/
def leavesTtc (w0 : Word) (rest : List Word) : Bool :=
  match decode (w0 :: rest) with
  | .error _ => true
  | .ok i => i.opcode != .ttcConfig && i.opcode != .ttcEnable && i.opcode != .reset

/-- Under the TTC configuration `c` the input neither rewrites the TTC state nor is a reference message (44 R132): the
timer goes on counting ticks from the last reference. -/
def keepsTtcRunning (c : TtcConfig) : Input → Bool
  | .command w0 rest => leavesTtc w0 rest
  | .event (.rxFrame fr _ _) => !(fr.id == c.refId && fr.ide == c.refIde)
  | .event .txStart | .event .txSuccess | .event (.txArbLost _ _) | .event (.txError _ _) | .event (.rxError _ _)
  | .event (.busOff _) | .event .busOffRecover | .event .clkTick => true
  | .hardwareReset => false
  | .hostBreach _ => true

/-- An arrival of a frame at the block (42 R110). -/
structure Arrival where
  frame : TxFrame
  errorType : ErrorType
  draw : AbortDraw
  deriving DecidableEq, Repr

/-- The arrival as an input. -/
def Arrival.input (a : Arrival) : Input := .event (.rxFrame a.frame a.errorType a.draw)

end Sys2Proof.Machine
end

