-- ==== Sys2Proof/Certificates/Slice0/Obligations.lean ====
section
/-! DEFINITION. The statements for the provers. Each says which rule of spec/ it states; where it rests on a choice of
the model it names the log entry. -/

section

open Sys2Proof Sys2Proof.Machine Sys2Proof.Config

/-! ### The command port (30, 20, 00) -/

/-- Every command is read back from its transaction, whatever its operands (30 R60 to R67, R70). -/
def Obligations.DecodeOfEncode : Prop :=
  ∀ i : Instr, i.wf = true → decode (encode i) = .ok i

/-- No transaction is accepted but the one of the command it is read as: no reserved bit, no reserved code, no
surplus word passes (30 R60, R69). -/
def Obligations.DecodeAcceptsOnlyEncodings : Prop :=
  ∀ (ws : List Word) (i : Instr), decode ws = .ok i → i.wf = true ∧ encode i = ws

/-- The operands a transaction is read as stand where 30 R63 to R67 and R70 put them, under the opcode and in the number
of words R61 and R70 give, and the bits no field holds are 0 (R60). -/
def Obligations.OperandsStandInTheMapsFields : Prop :=
  ∀ (w0 : Word) (rest : List Word) (i : Instr), decode (w0 :: rest) = .ok i →
    match i with
    | .cfgEnter => w0 = 0x01000000#32 ∧ rest = []
    | .cfgLeave => w0 = 0x02000000#32 ∧ rest = []
    | .setWorkMode m =>
      field w0 24 8 = 0x03#8 ∧ rest = [] ∧ field w0 2 22 = 0
        ∧ (m = .normal ∧ field w0 0 2 = 0 ∨ m = .test ∧ field w0 0 2 = 1)
    | .setTxOptions o =>
      field w0 24 8 = 0x04#8 ∧ rest = [] ∧ field w0 3 21 = 0
        ∧ o.ptbSS = bitAt w0 0 ∧ o.stbSS = bitAt w0 1 ∧ o.stbPrio = bitAt w0 2
    | .btWrite p t =>
      field w0 24 8 = 0x05#8 ∧ field w0 1 23 = 0
        ∧ (p = .slow ∧ bitAt w0 0 = false ∨ p = .fast ∧ bitAt w0 0 = true)
        ∧ ∃ w1, rest = [w1] ∧ t.seg1 = field w1 0 8 ∧ t.seg2 = field w1 8 8 ∧ t.sjw = field w1 16 8
          ∧ t.prescaler = field w1 24 8
    | .btRead p =>
      field w0 24 8 = 0x06#8 ∧ rest = [] ∧ field w0 1 23 = 0
        ∧ (p = .slow ∧ bitAt w0 0 = false ∨ p = .fast ∧ bitAt w0 0 = true)
    | .filterWrite index mt id mask =>
      field w0 24 8 = 0x07#8 ∧ field w0 6 18 = 0 ∧ index = field w0 0 4
        ∧ (mt = .stdOnly ∧ field w0 4 2 = 0 ∨ mt = .extOnly ∧ field w0 4 2 = 1 ∨ mt = .both ∧ field w0 4 2 = 2)
        ∧ ∃ w1 w2, rest = [w1, w2] ∧ field w1 29 3 = 0 ∧ field w2 29 3 = 0 ∧ id = field w1 0 29
          ∧ mask = field w2 0 29
    | .filterEnable sel en =>
      field w0 24 8 = 0x08#8 ∧ rest = [] ∧ field w0 17 7 = 0 ∧ sel = field w0 0 16 ∧ en = bitAt w0 16
    | .filterRead index => field w0 24 8 = 0x09#8 ∧ rest = [] ∧ field w0 4 20 = 0 ∧ index = field w0 0 4
    | .reset => w0 = 0x0F000000#32 ∧ rest = []
    | .txLoad buf f =>
      field w0 24 8 = 0x10#8 ∧ field w0 1 23 = 0
        ∧ (buf = .ptb ∧ bitAt w0 0 = false ∨ buf = .stb ∧ bitAt w0 0 = true)
        ∧ ∃ w1 w2 ds, rest = w1 :: w2 :: ds ∧ ds.length = (dataLen f.dlc f.fdf f.rtr + 3) / 4
          ∧ f.id = field w1 0 29 ∧ f.ide = bitAt w1 29 ∧ f.rtr = bitAt w1 30 ∧ bitAt w1 31 = false
          ∧ f.dlc = field w2 0 4 ∧ f.fdf = bitAt w2 4 ∧ f.brs = bitAt w2 5 ∧ field w2 6 26 = 0
          ∧ f.data.length = dataLen f.dlc f.fdf f.rtr
          ∧ ∀ k, k < 4 * ds.length →
            field (ds.getD (k / 4) 0) (8 * (k % 4)) 8 = if k < f.data.length then f.data.getD k 0 else 0
    | .txEnable t =>
      field w0 24 8 = 0x11#8 ∧ rest = [] ∧ field w0 2 22 = 0
        ∧ (t = .ptb ∧ field w0 0 2 = 0 ∨ t = .stbOne ∧ field w0 0 2 = 1 ∨ t = .stbAll ∧ field w0 0 2 = 2)
    | .txAbort ptb stb =>
      field w0 24 8 = 0x12#8 ∧ rest = [] ∧ field w0 2 22 = 0 ∧ ptb = bitAt w0 0 ∧ stb = bitAt w0 1
    | .txStatusRead => w0 = 0x13000000#32 ∧ rest = []
    | .rxSetConfig afwl policy =>
      field w0 24 8 = 0x20#8 ∧ rest = [] ∧ field w0 5 19 = 0 ∧ afwl = field w0 0 4
        ∧ (policy = .discardNew ∧ bitAt w0 4 = false ∨ policy = .saveNew ∧ bitAt w0 4 = true)
    | .rxPeek => w0 = 0x21000000#32 ∧ rest = []
    | .rxRelease => w0 = 0x22000000#32 ∧ rest = []
    | .rxStatusRead => w0 = 0x23000000#32 ∧ rest = []
    | .errSetWarnLimit ewl => field w0 24 8 = 0x30#8 ∧ rest = [] ∧ field w0 8 16 = 0 ∧ ewl = field w0 0 8
    | .errRead => w0 = 0x31000000#32 ∧ rest = []
    | .errForceBusOff => w0 = 0x32000000#32 ∧ rest = []
    | .errClearCounters => w0 = 0x33000000#32 ∧ rest = []
    | .ttcConfig c =>
      field w0 24 8 = 0x40#8 ∧ field w0 11 13 = 0 ∧ c.slotPtr = field w0 3 8
        ∧ (c.trigType = .immediate ∧ field w0 0 3 = 0 ∨ c.trigType = .time ∧ field w0 0 3 = 1
          ∨ c.trigType = .singleShotTransmit ∧ field w0 0 3 = 2 ∨ c.trigType = .transmitStart ∧ field w0 0 3 = 3
          ∨ c.trigType = .transmitStop ∧ field w0 0 3 = 4)
        ∧ ∃ w1 w2 w3, rest = [w1, w2, w3] ∧ field w1 30 2 = 0 ∧ c.refId = field w1 0 29 ∧ c.refIde = bitAt w1 29
          ∧ c.trigTime = field w2 0 16 ∧ c.watchTime = field w2 16 16 ∧ c.presc = field w3 0 16
          ∧ c.tew = field w3 16 16
    | .ttcEnable en => field w0 24 8 = 0x41#8 ∧ rest = [] ∧ field w0 1 23 = 0 ∧ en = bitAt w0 0
    | .ttcRead => w0 = 0x42000000#32 ∧ rest = []
    | .statusRead => w0 = 0x50000000#32 ∧ rest = []
    | .statusClear mask => field w0 24 8 = 0x51#8 ∧ rest = [] ∧ field w0 14 10 = 0 ∧ mask = field w0 0 14
    | .intEnable mask en =>
      field w0 24 8 = 0x52#8 ∧ rest = [] ∧ field w0 14 2 = 0 ∧ field w0 17 7 = 0 ∧ mask = field w0 0 14
        ∧ en = bitAt w0 16

/-- The worked encodings of 30 R76 decode to the commands their syntax names. -/
def Obligations.WorkedEncodingsDecode : Prop :=
  decode [0x01000000] = .ok .cfgEnter
    ∧ decode [0x02000000] = .ok .cfgLeave
    ∧ decode [0x05000000, 0x04010410] = .ok (.btWrite .slow ⟨16, 4, 1, 4⟩)
    ∧ decode [0x07000020, 0x00000000, 0x00000000] = .ok (.filterWrite 0 .both 0 0)
    ∧ decode [0x0800FFFF] = .ok (.filterEnable 0xFFFF false)
    ∧ decode [0x08010001] = .ok (.filterEnable 0x0001 true)
    ∧ decode [0x10000000, 0x00000123, 0x00000002, 0x0000BBAA]
        = .ok (.txLoad .ptb ⟨0x123, false, false, false, false, 2, [0xAA, 0xBB]⟩)
    ∧ decode [0x10000001, 0x00000050, 0x00000000] = .ok (.txLoad .stb ⟨0x050, false, false, false, false, 0, []⟩)
    ∧ decode [0x11000002] = .ok (.txEnable .stbAll)
    ∧ decode [0x20000006] = .ok (.rxSetConfig 6 .discardNew)
    ∧ decode [0x40000001, 0x000007FF, 0x00640005, 0x00000001]
        = .ok (.ttcConfig
            { refId := 0x7FF, refIde := false, presc := 1, slotPtr := 0, trigType := .time, tew := 0, trigTime := 5,
              watchTime := 100 })
    ∧ decode [0x52003FFF] = .ok (.intEnable 0x3FFF false)

/-- A transaction that is no command's answers ILLEGAL and changes nothing else (30 R69 steps 1 to 3, R71): one with an
opcode of R71's list, and any other that no command is encoded as. -/
def Obligations.NonCommandsAnswerIllegal : Prop :=
  ∀ (w0 : Word) (rest : List Word) (s : State),
    ((∀ i : Instr, i.wf = true → encode i ≠ w0 :: rest) →
      runInput (.command w0 rest) s = .next { s with resp := ⟨.illegal, []⟩ })
    ∧ ((field w0 24 8).toNat ∈ [0x00] ++ List.range' 0x0A 5 ++ List.range' 0x14 12 ++ List.range' 0x24 12
          ++ List.range' 0x34 12 ++ List.range' 0x43 13 ++ List.range' 0x53 0xAD →
      runInput (.command w0 rest) s = .next { s with resp := ⟨.illegal, []⟩ })

/-- A step that meets a transaction which is some command's runs that command, the transaction taken off the list of
inputs, and one that meets any other transaction answers ILLEGAL (20 R47, R52; 30 R69). The list of inputs is the
model's (log 1). -/
def Obligations.StepRunsTheDecodedCommand : Prop :=
  ∀ (s : State) (w0 : Word) (rest : List Word) (more : List Input),
    s.inputs = .command w0 rest :: more → s.inv = true →
      (∀ i, decode (w0 :: rest) = .ok i → step s = exec i { s with inputs := more })
      ∧ (∀ e, decode (w0 :: rest) = .error e → step s = .next { s with inputs := more, resp := ⟨.illegal, []⟩ })

/-- Each event has a step exactly where its precondition holds (00 R12, 60 R167): the preconditions of 41 R98 to R101,
42 R110 and R111, 43 R117 and R118, 44 R129. A frame can be chosen where its slot is Queued, its buffer enabled and the
slot not held by TTC (10 R40, 44 R124); a received frame is well-formed by 00 R18. That its data has the length its
header says is 00 R15 (log 12). -/
def Obligations.EventsOccurExactlyUnderTheirPreconditions : Prop :=
  ∀ (e : Event) (s : State),
    let pending : Nat → Prop := fun k => (s.slot k).st = .queued ∧ (if k = 0 then s.ptbEn = true else s.stbEn ≠ .off)
      ∧ ¬ (s.ttcEn = true ∧ k = s.ttcCfg.slotPtr.toNat ∧ s.released = false
        ∧ (s.ttcCfg.trigType = .singleShotTransmit ∨ s.ttcCfg.trigType = .transmitStart
          ∨ s.ttcCfg.trigType = .transmitStop))
    let can : Prop :=
      match e with
      | .txStart =>
        s.mode = .normal ∧ s.busOff = false ∧ (∀ k, (s.slot k).st ≠ .transmitting) ∧ ∃ k, pending k
      | .txSuccess => ∃ k, (s.slot k).st = .transmitting
      | .txArbLost _ _ => ∃ k, (s.slot k).st = .transmitting
      | .txError t _ => (∃ k, (s.slot k).st = .transmitting) ∧ t ≠ .none
      | .rxFrame fr _ _ =>
        s.mode = .normal ∧ s.busOff = false
          ∧ ((fr.ide = false → fr.id.toNat < 2 ^ 11) ∧ (fr.ide = true → fr.id.toNat < 2 ^ 29)
            ∧ (fr.brs = true → fr.fdf = true) ∧ (fr.fdf = true → fr.rtr = false))
          ∧ fr.data.length = dataLen fr.dlc fr.fdf fr.rtr
      | .rxError t _ => s.mode = .normal ∧ s.busOff = false ∧ t ≠ .none
      | .busOff _ => s.mode = .normal ∧ s.busOff = false
      | .busOffRecover => s.busOff = true
      | .clkTick => True
    (can → runEvent e s = .next (eventEffect e s)) ∧ (¬ can → runEvent e s = .refused .eventCannotOccur)

/-- From a state within the invariants a step stops only on an event that cannot occur or on a host that breaks its
duty; a command transaction and a reset always have a step (60 R161). -/
def Obligations.StepStopsOnlyOnImpossibleInputs : Prop :=
  ∀ s : State, s.inv = true →
    ((∃ t, step s = .next t) ∨ step s = .refused .eventCannotOccur ∨ ∃ b, step s = .refused (.hostDuty b))
    ∧ (∀ w0 rest more, s.inputs = .command w0 rest :: more → ∃ t, step s = .next t)
    ∧ (∀ more, s.inputs = .hardwareReset :: more → ∃ t, step s = .next t)

/-! ### Invariants (10 R46) -/

/-- The reset state meets the invariants, for every parameter value, every size and every draw, and it is typed where
there is an STB slot and a legal prescaler (10 R46, 70 R173). The state `State.reset` is the one of log 5. -/
def Obligations.ResetMeetsTheInvariants : Prop :=
  (∀ (p : Params) (nstb nfilt : Nat) (d : ResetDraw),
    (State.resetWith p nstb nfilt d).inv = true
      ∧ (0 < nstb → paramsUsable p = true → (State.resetWith p nstb nfilt d).typed = true))
  ∧ State.reset.inv = true ∧ State.reset.typed = true

/-- Every step keeps the invariants I1 to I10 (10 R46, 60 R161). -/
def Obligations.StepKeepsTheInvariants : Prop :=
  ∀ s t : State, s.inv = true → step s = .next t → t.inv = true

/-- Every step keeps every field within the type spec/10_state.md gives it: the fill pointer (R37), the limits (R30,
R31), the TTC configuration (R32), and the data length of every frame held (00 R15). -/
def Obligations.StepKeepsStatesTyped : Prop :=
  ∀ s t : State, s.typed = true → s.inv = true → step s = .next t → t.typed = true

/-- No step changes a parameter, the number of STB slots or the number of filters (00 R9; the numbers are list lengths,
log 5, log 6). -/
def Obligations.ParametersAndSizesNeverChange : Prop :=
  ∀ s t : State, step s = .next t →
    t.params = s.params ∧ t.stb.length = s.stb.length ∧ t.filt.length = s.filt.length

/-! ### Rules about every command and every event (20 R53, 60 R158, R159) -/

/-- Every transaction has an outcome, each command answers only the codes 60 R159 gives it, and data words come only
with OK and only from the read commands (30 R68). -/
def Obligations.EveryTransactionHasItsResultCode : Prop :=
  ∀ (w0 : Word) (rest : List Word) (s : State), ∃ t, runInput (.command w0 rest) s = .next t ∧
    match decode (w0 :: rest) with
    | .error _ => t.resp = ⟨.illegal, []⟩
    | .ok i =>
      (t.resp.code = .ok
        ∨ t.resp.code = .configError
          ∧ i.opcode ∈ [.btWrite, .filterWrite, .filterEnable, .filterRead, .txLoad, .txEnable, .rxSetConfig,
            .errSetWarnLimit, .errForceBusOff, .errClearCounters, .ttcConfig]
        ∨ t.resp.code = .bufferFull ∧ i.opcode = .txLoad
        ∨ t.resp.code = .empty ∧ (i.opcode = .rxPeek ∨ i.opcode = .rxRelease))
      ∧ (t.resp.words ≠ [] → t.resp.code = .ok
        ∧ i.opcode ∈ [.btRead, .filterRead, .txStatusRead, .rxPeek, .rxStatusRead, .errRead, .ttcRead, .statusRead])

/-- A command that fails any check changes nothing but the response (60 R158). -/
def Obligations.FailingCommandChangesOnlyTheResponse : Prop :=
  ∀ (w0 : Word) (rest : List Word) (s t : State),
    runInput (.command w0 rest) s = .next t → t.resp.code ≠ .ok → t = { s with resp := ⟨t.resp.code, []⟩ }

/-- The read commands and RX_PEEK change nothing but the response, and asked again they answer the same (20 R53). -/
def Obligations.ReadCommandsChangeOnlyTheResponse : Prop :=
  ∀ (i : Instr) (s : State),
    i.opcode ∈ [.btRead, .filterRead, .txStatusRead, .rxPeek, .rxStatusRead, .errRead, .ttcRead, .statusRead] →
      ∃ t, exec i s = .next t ∧ t = { s with resp := t.resp } ∧ exec i t = .next t

/-- An event never touches the response, the modes, the configuration registers, the fill pointer or the stamp counter
(10 R24; the effects of 41 R98 to R101, 42 R110, R111, 43 R117, R118, 44 R129). -/
def Obligations.EventsKeepResponseAndConfiguration : Prop :=
  ∀ (e : Event) (s t : State), runEvent e s = .next t →
    t = { s with
      ptb := t.ptb, stb := t.stb, ptbEn := t.ptbEn, stbEn := t.stbEn, rx := t.rx, recCount := t.recCount,
      tecCount := t.tecCount, busOff := t.busOff, lastErrorType := t.lastErrorType, alc := t.alc, timer := t.timer,
      prescCnt := t.prescCnt, released := t.released, flags := t.flags }

/-- Bit timing and filter contents change in configuration state only, or by a reset (00 R20, 70 R178). -/
def Obligations.TimingAndFilterContentsChangeOnlyInConfig : Prop :=
  ∀ (i : Input) (s t : State), runInput i s = .next t → resets i = false → s.mode = .normal →
    t.btSlow = s.btSlow ∧ t.btFast = s.btFast
      ∧ t.filt.map (fun f => (f.id, f.mask, f.maskType)) = s.filt.map (fun f => (f.id, f.mask, f.maskType))

/-- No command but RESET and, in the test work mode and in bus-off, ERR_CLEAR_COUNTERS changes an error counter
(43 R122, R123 law 2, law 5). -/
def Obligations.CommandsNeverWriteTheCountersInProduction : Prop :=
  ∀ (i : Instr) (s t : State), exec i s = .next t → i ≠ .reset →
    (t.recCount ≠ s.recCount ∨ t.tecCount ≠ s.tecCount) →
      i = .errClearCounters ∧ s.workMode = .test ∧ s.busOff = true ∧ t.recCount = 0 ∧ t.tecCount = 0

/-- RX_OVERFLOW is set only by an arrival at a full FIFO and cleared only by RX_RELEASE or a reset (42 R108, R112 law 4;
45 R138). -/
def Obligations.OverflowFlagNeedsARelease : Prop :=
  ∀ (i : Input) (s t : State), runInput i s = .next t → resets i = false →
    (s.flag .rxOverflow = true → releases i = false → t.flag .rxOverflow = true)
    ∧ (s.rx.length ≤ 8 → s.flag .rxOverflow = false → t.flag .rxOverflow = true →
      s.rx.length = 8 ∧ t.rx.length = 8)

/-- A node in bus-off sends nothing and receives nothing: no event but the recovery and the tick has a step (43 R116,
R123 law 4). -/
def Obligations.BusOffNodeIsSilent : Prop :=
  ∀ (s : State) (e : Event), s.inv = true → s.busOff = true → e ≠ .busOffRecover → e ≠ .clkTick →
    runEvent e s = .refused .eventCannotOccur

/-! ### The commands of 40 -/

/-- CFG_LEAVE, SET_WORK_MODE and SET_TX_OPTIONS write one register each and nothing else (40 R78, R79; 41 R92). -/
def Obligations.ModeAndOptionCommandsWriteOneRegister : Prop :=
  ∀ s : State,
    exec .cfgLeave s = .next { s with mode := .normal, resp := ⟨.ok, []⟩ }
    ∧ (∀ m, exec (.setWorkMode m) s = .next { s with workMode := m, resp := ⟨.ok, []⟩ })
    ∧ (∀ o, exec (.setTxOptions o) s = .next { s with txOpt := o, resp := ⟨.ok, []⟩ })

/-- CFG_ENTER enters configuration state and ends the attempt in progress, if there is one, by the rule of 41 R91 for its
cause, whatever the bus engine would draw; it writes no flag and no counter, and a frame that is not single-shot is Queued
again, even with an abort asked for (40 R77, D23, 70 R184; log 7). -/
def Obligations.ConfigEnterEndsTheAttempt : Prop :=
  ∀ s : State,
    ((∀ k, (s.slot k).st ≠ .transmitting) →
      exec .cfgEnter s = .next { s with mode := .config, resp := ⟨.ok, []⟩ })
    ∧ (∀ k, s.inv1 = true → (s.slot k).st = .transmitting →
      (∀ d, exec .cfgEnter s = .next { s.failAttempt k .configEntry d with mode := .config, resp := ⟨.ok, []⟩ })
      ∧ (¬ (k = 0 ∧ s.txOpt.ptbSS = true ∨ 1 ≤ k ∧ s.txOpt.stbSS = true
          ∨ s.ttcEn = true ∧ k = s.ttcCfg.slotPtr.toNat ∧ s.ttcCfg.trigType = .singleShotTransmit) →
        ∃ t, exec .cfgEnter s = .next t
          ∧ t = { s with ptb := t.ptb, stb := t.stb, mode := .config, resp := ⟨.ok, []⟩ } ∧ t.stb.length = s.stb.length
          ∧ t.slot k = { s.slot k with st := .queued, abortReq := false } ∧ ∀ j, j ≠ k → t.slot j = s.slot j))
    ∧ ∃ t, exec .cfgEnter s = .next t ∧ t.flags = s.flags ∧ t.recCount = s.recCount ∧ t.tecCount = s.tecCount

/-- BT_WRITE writes the tuple of the phase it names if the block is in configuration state, every field is in its range
and `seg1 ≥ seg2 + 1`, `seg2 ≥ sjw`; otherwise it answers CONFIG_ERROR and writes nothing (40 R80). -/
def Obligations.BitTimingWriteChecksAndWrites : Prop :=
  ∀ (p : Phase) (t : BitTiming) (s : State),
    let r : BtRange := match p with
      | .slow => s.params.btRangeSlow
      | .fast => s.params.btRangeFast
    let legal : Prop :=
      s.mode = .config
      ∧ (r.seg1.lo ≤ t.seg1.toNat ∧ t.seg1.toNat ≤ r.seg1.hi) ∧ (r.seg2.lo ≤ t.seg2.toNat ∧ t.seg2.toNat ≤ r.seg2.hi)
      ∧ (r.sjw.lo ≤ t.sjw.toNat ∧ t.sjw.toNat ≤ r.sjw.hi)
      ∧ (r.prescaler.lo ≤ t.prescaler.toNat ∧ t.prescaler.toNat ≤ r.prescaler.hi)
      ∧ t.seg2.toNat + 1 ≤ t.seg1.toNat ∧ t.sjw.toNat ≤ t.seg2.toNat
    (legal → exec (.btWrite p t) s = .next
      (match p with
        | .slow => { s with btSlow := t, resp := ⟨.ok, []⟩ }
        | .fast => { s with btFast := t, resp := ⟨.ok, []⟩ }))
    ∧ (¬ legal → exec (.btWrite p t) s = .next { s with resp := ⟨.configError, []⟩ })

/-- BT_READ answers the tuple of the phase in the layout of 30 R63 and changes nothing; after a BT_WRITE that succeeded
it answers the word that was written (40 R81). -/
def Obligations.BitTimingReadsBack : Prop :=
  ∀ (p : Phase) (s : State),
    (∃ w : Word, exec (.btRead p) s = .next { s with resp := ⟨.ok, [w]⟩ } ∧
      (⟨field w 0 8, field w 8 8, field w 16 8, field w 24 8⟩ : BitTiming)
        = match p with
          | .slow => s.btSlow
          | .fast => s.btFast)
    ∧ ∀ (t : BitTiming) (u : State) (w0 w1 : Word), encode (.btWrite p t) = [w0, w1] →
      exec (.btWrite p t) s = .next u → u.resp.code = .ok →
        exec (.btRead p) u = .next { u with resp := ⟨.ok, [w1]⟩ }

/-- FILTER_WRITE writes identifier, mask and mask type of the filter it names, in configuration state only; the enable
and the other filters stay (40 R83). -/
def Obligations.FilterWriteChangesOneFilter : Prop :=
  ∀ (index : BitVec 4) (mt : MaskType) (id mask : BitVec 29) (s : State),
    (s.mode = .config → index.toNat < s.filt.length →
      ∃ t, exec (.filterWrite index mt id mask) s = .next t ∧ t = { s with filt := t.filt, resp := ⟨.ok, []⟩ }
        ∧ ∀ j : Nat, t.filt[j]? =
          if j = index.toNat then (s.filt[j]?).map fun f => ⟨id, mask, mt, f.en⟩ else s.filt[j]?)
    ∧ (s.mode = .normal ∨ s.filt.length ≤ index.toNat →
      exec (.filterWrite index mt id mask) s = .next { s with resp := ⟨.configError, []⟩ })

/-- FILTER_ENABLE writes the enable of the filters selected, in either state, and nothing else; doing it twice is doing
it once; a selection of a filter that does not exist is CONFIG_ERROR (40 R84, 20 R53). -/
def Obligations.FilterEnableChangesTheSelectedEnables : Prop :=
  ∀ (sel : BitVec 16) (en : Bool) (s : State),
    ((∀ i, s.filt.length ≤ i → sel.getLsbD i = false) →
      ∃ t, exec (.filterEnable sel en) s = .next t ∧ t = { s with filt := t.filt, resp := ⟨.ok, []⟩ }
        ∧ (∀ j : Nat, t.filt[j]? =
          (s.filt[j]?).map fun f => if sel.getLsbD j then ⟨f.id, f.mask, f.maskType, en⟩ else f)
        ∧ exec (.filterEnable sel en) t = .next t)
    ∧ (∀ i, s.filt.length ≤ i → sel.getLsbD i = true →
      exec (.filterEnable sel en) s = .next { s with resp := ⟨.configError, []⟩ })

/-- FILTER_READ answers the filter it names in the layout of 30 R65 and 40 R85 and changes nothing. -/
def Obligations.FilterReadAnswersTheFilter : Prop :=
  ∀ (index : BitVec 4) (s : State),
    (∀ f, s.filt[index.toNat]? = some f →
      ∃ w1 w2 w3 : Word, exec (.filterRead index) s = .next { s with resp := ⟨.ok, [w1, w2, w3]⟩ }
        ∧ bitAt w1 0 = f.en ∧ field w1 1 3 = 0
        ∧ field w1 4 2 = (match f.maskType with
          | .stdOnly => 0
          | .extOnly => 1
          | .both => 2)
        ∧ field w1 6 26 = 0 ∧ field w2 0 29 = f.id ∧ field w2 29 3 = 0 ∧ field w3 0 29 = f.mask ∧ field w3 29 3 = 0)
    ∧ (s.filt.length ≤ index.toNat → exec (.filterRead index) s = .next { s with resp := ⟨.configError, []⟩ })

/-- RESET and the hardware reset put every field to the value of 70 R173, with the draws in the ranges it gives; the
response is OK without words (40 R86, 70 R173, R175). What is the model's own: the parameters and the inputs stay, and
the count of free values goes on (log 1, log 3, log 5). -/
def Obligations.ResetPutsTheResetState : Prop :=
  ∀ s : State, ∃ t, exec .reset s = .next t ∧ runInput .hardwareReset s = .next t
    ∧ t.mode = .config ∧ t.workMode = .normal ∧ t.resp = ⟨.ok, []⟩
    ∧ (1 ≤ t.afwl.toNat ∧ t.afwl.toNat ≤ 8) ∧ (1 ≤ t.ewl.toNat ∧ t.ewl.toNat ≤ 255)
    ∧ t.filt.length = s.filt.length
    ∧ (t.ttcCfg.slotPtr.toNat ≤ s.stb.length ∧ (t.ttcCfg.refIde = false → t.ttcCfg.refId.toNat < 2 ^ 11)
      ∧ (s.params.ttcPrescOk ≠ [] → t.ttcCfg.presc ∈ s.params.ttcPrescOk))
    ∧ (t.ptb.st = .empty ∧ t.ptb.abortReq = false)
    ∧ (t.stb.length = s.stb.length ∧ ∀ sl ∈ t.stb, sl.st = .empty ∧ sl.abortReq = false)
    ∧ t.fillPtr = 0 ∧ t.nextSeq = 0 ∧ t.ptbEn = false ∧ t.stbEn = .off ∧ t.rx = []
    ∧ t.recCount = 0 ∧ t.tecCount = 0 ∧ t.busOff = false ∧ t.lastErrorType = .none ∧ t.alc = 0
    ∧ t.ttcEn = false ∧ t.timer = 0 ∧ t.prescCnt = 0 ∧ t.released = false ∧ t.flags = 0
    ∧ t.params = s.params ∧ t.inputs = s.inputs ∧ t.draws = s.draws + 1

/-- A reset can leave every configuration register at every value of its type, whatever the others are left at: the draws
of 70 R173 shut no value out (00 R11, 70 R173, R174). How a draw is brought into its range is the model's (log 4). -/
def Obligations.ResetCanDrawEveryLegalValue : Prop :=
  ∀ (p : Params) (nstb nfilt : Nat) (slow fast : BitTiming) (filt : List Sys2Proof.Filter) (opt : TxOptions)
    (afwl : BitVec 4) (policy : RxPolicy) (ewl : BitVec 8) (cfg : TtcConfig) (ie : BitVec 14),
    filt.length = nfilt → 1 ≤ afwl.toNat → afwl.toNat ≤ 8 → ewl ≠ 0 →
    cfg.slotPtr.toNat ≤ nstb → cfg.presc ∈ p.ttcPrescOk → (cfg.refIde = false → cfg.refId.toNat < 2 ^ 11) →
    ∃ d : ResetDraw, State.resetWith p nstb nfilt d =
      { State.resetWith p nstb nfilt d with
        btSlow := slow, btFast := fast, filt := filt, txOpt := opt, afwl := afwl, rxPolicy := policy, ewl := ewl,
        ttcCfg := cfg, ie := ie }

/-! ### The transmit scheduler (41) -/

/-- TX_LOAD's checks decide in their order, whatever the later ones say (41 R93, 60 R163 point 4), and a load that passes
them into the PTB stamps the frame and changes nothing else. A frame is well-formed by the four conditions of 00 R18. -/
def Obligations.TransmitLoadChecksInOrderAndFillsThePtb : Prop :=
  ∀ (buf : TxBuffer) (f : TxFrame) (s : State),
    let wellFormed : Prop :=
      (f.ide = false → f.id.toNat < 2 ^ 11) ∧ (f.ide = true → f.id.toNat < 2 ^ 29) ∧ (f.brs = true → f.fdf = true)
        ∧ (f.fdf = true → f.rtr = false)
    (s.mode = .config → exec (.txLoad buf f) s = .next { s with resp := ⟨.configError, []⟩ })
    ∧ (s.mode = .normal → ¬ wellFormed →
      exec (.txLoad buf f) s = .next { s with resp := ⟨.configError, []⟩ })
    ∧ (s.mode = .normal → wellFormed → s.ptb.st ≠ .empty →
      exec (.txLoad .ptb f) s = .next { s with resp := ⟨.bufferFull, []⟩ })
    ∧ (s.mode = .normal → wellFormed → (∀ sl ∈ s.stb, sl.st ≠ .empty) →
      exec (.txLoad .stb f) s = .next { s with resp := ⟨.bufferFull, []⟩ })
    ∧ (s.mode = .normal → wellFormed → s.ptb.st = .empty →
      exec (.txLoad .ptb f) s = .next
        { s with
          ptb := { st := .queued, frame := f, seq := s.nextSeq, abortReq := false }
          nextSeq := s.nextSeq + 1, resp := ⟨.ok, []⟩ })

/-- A load into the STB fills the first Empty slot in cyclic order from the fill pointer, stamps the frame and sets the
pointer behind it (41 R93, R94). -/
def Obligations.TransmitLoadFillsTheNextStbSlot : Prop :=
  ∀ (f : TxFrame) (s : State), s.mode = .normal → f.wellFormed = true → (∃ sl ∈ s.stb, sl.st = .empty) →
    ∃ i k : Nat, i < s.stb.length ∧ k = (s.fillPtr + i) % s.stb.length ∧ (s.slot (k + 1)).st = .empty
      ∧ (∀ j, j < i → (s.slot ((s.fillPtr + j) % s.stb.length + 1)).st ≠ .empty)
      ∧ exec (.txLoad .stb f) s = .next
        { s with
          stb := s.stb.set k { st := .queued, frame := f, seq := s.nextSeq, abortReq := false }
          fillPtr := (k + 1) % s.stb.length, nextSeq := s.nextSeq + 1, resp := ⟨.ok, []⟩ }

/-- TX_ENABLE enables the buffer it names if that buffer holds a frame, changes nothing if it does not, and is
CONFIG_ERROR outside normal state (41 R95). -/
def Obligations.TransmitEnableNeedsAFrame : Prop :=
  ∀ (tsel : TxSelect) (s : State),
    (s.mode = .config → exec (.txEnable tsel) s = .next { s with resp := ⟨.configError, []⟩ })
    ∧ (s.mode = .normal → s.ptb.st ≠ .empty →
      exec (.txEnable .ptb) s = .next { s with ptbEn := true, resp := ⟨.ok, []⟩ })
    ∧ (s.mode = .normal → s.ptb.st = .empty → exec (.txEnable .ptb) s = .next { s with resp := ⟨.ok, []⟩ })
    ∧ (s.mode = .normal → (∃ sl ∈ s.stb, sl.st ≠ .empty) →
      exec (.txEnable .stbOne) s = .next { s with stbEn := .one, resp := ⟨.ok, []⟩ }
      ∧ exec (.txEnable .stbAll) s = .next { s with stbEn := .all, resp := ⟨.ok, []⟩ })
    ∧ (s.mode = .normal → (∀ sl ∈ s.stb, sl.st = .empty) →
      exec (.txEnable .stbOne) s = .next { s with resp := ⟨.ok, []⟩ }
      ∧ exec (.txEnable .stbAll) s = .next { s with resp := ⟨.ok, []⟩ })

/-- TX_ABORT removes the Queued frames of the buffers it names, marks a Transmitting one and leaves every other slot
alone; TX_ABORTED is set if a frame was removed, and the enables and the release follow (41 R96, R88, R102 law 6;
44 R125). -/
def Obligations.TransmitAbortRemovesQueuedFrames : Prop :=
  ∀ (p q : Bool) (s : State), ∃ t, exec (.txAbort p q) s = .next t
    ∧ t = { s with
        ptb := t.ptb, stb := t.stb, ptbEn := t.ptbEn, stbEn := t.stbEn, released := t.released, flags := t.flags,
        resp := ⟨.ok, []⟩ }
    ∧ t.stb.length = s.stb.length
    ∧ (∀ k, t.slot k =
        if (if k = 0 then p else q) = true ∧ (s.slot k).st = .queued then { s.slot k with st := .empty }
        else if (if k = 0 then p else q) = true ∧ (s.slot k).st = .transmitting then { s.slot k with abortReq := true }
        else s.slot k)
    ∧ t.ptbEn = (s.ptbEn && !(p && t.ptb.st == .empty))
    ∧ ((∀ j, (t.slot (j + 1)).st = .empty) → t.stbEn = .off)
    ∧ ((∃ j, (t.slot (j + 1)).st ≠ .empty) → t.stbEn = s.stbEn)
    ∧ t.released = (s.released && (t.slot s.ttcCfg.slotPtr.toNat).st == (s.slot s.ttcCfg.slotPtr.toNat).st)
    ∧ ((∃ k, (s.slot k).st ≠ (t.slot k).st) → t.flags = s.flags ||| 0x0004)
    ∧ ((∀ k, (s.slot k).st = (t.slot k).st) → t.flags = s.flags)

/-- TX_STATUS_READ answers the state of the transmit buffers in the layout of 41 R97. The fields of 8 bits hold the
counts where NSTB fits them (log 6). -/
def Obligations.TransmitStatusWordHasItsFields : Prop :=
  ∀ s : State, ∃ w : Word, exec .txStatusRead s = .next { s with resp := ⟨.ok, [w]⟩ }
    ∧ field w 0 2 = (match s.ptb.st with
      | .empty => 0
      | .queued => 1
      | .transmitting => 2)
    ∧ bitAt w 2 = s.ptbEn
    ∧ field w 3 2 = (match s.stbEn with
      | .off => 0
      | .one => 1
      | .all => 2)
    ∧ (s.stb.length < 256 → (field w 5 8).toNat = (s.stb.filter fun sl => sl.st != .empty).length)
    ∧ (bitAt w 13 = true ↔ ∀ sl ∈ s.stb, sl.st ≠ .empty)
    ∧ (s.fillPtr < 256 → (field w 14 8).toNat = s.fillPtr)
    ∧ (bitAt w 22 = true ↔ ∃ k, (s.slot k).st = .transmitting)
    ∧ field w 23 9 = 0

/-- An attempt that ends without success (41 R91): a single-shot frame is dropped without TX_ABORTED; a requested abort,
where the bus engine honours it, drops the frame and sets TX_ABORTED; otherwise the frame waits again. On entry to
configuration state no abort is honoured (D23, 40 R77, 70 R184). The enables, the STB bookkeeping (R88) and the release
(44 R125) follow, and nothing else changes. How R91 is read for the two causes ConfigEntry and BusOff is the model's (log 7). -/
def Obligations.FailedAttemptDropsOrRequeuesTheFrame : Prop :=
  ∀ (s : State) (k : Nat) (c : FailCause) (d : AbortDraw), (s.slot k).st = .transmitting →
    let t := s.failAttempt k c d
    let single : Prop :=
      k = 0 ∧ s.txOpt.ptbSS = true ∨ 1 ≤ k ∧ s.txOpt.stbSS = true
        ∨ s.ttcEn = true ∧ k = s.ttcCfg.slotPtr.toNat ∧ s.ttcCfg.trigType = .singleShotTransmit
    let honoured : Prop := ¬ single ∧ c ≠ .configEntry ∧ (s.slot k).abortReq = true ∧ d.honour = true
    t = { s with
        ptb := t.ptb, stb := t.stb, ptbEn := t.ptbEn, stbEn := t.stbEn, released := t.released, flags := t.flags }
    ∧ t.stb.length = s.stb.length ∧ (∀ j, j ≠ k → t.slot j = s.slot j)
    ∧ (single ∨ honoured → t.slot k = { s.slot k with st := .empty, abortReq := false }
      ∧ t.ptbEn = (s.ptbEn && decide (k ≠ 0)) ∧ t.released = (s.released && decide (k ≠ s.ttcCfg.slotPtr.toNat))
      ∧ ((∀ j, (t.slot (j + 1)).st = .empty) → t.stbEn = .off))
    ∧ (single → t.flags = s.flags
      ∧ ((∃ j, (t.slot (j + 1)).st ≠ .empty) → t.stbEn = if k ≠ 0 ∧ s.stbEn = .one then .off else s.stbEn))
    ∧ (honoured → t.flags = s.flags ||| 0x0004
      ∧ ((∃ j, (t.slot (j + 1)).st ≠ .empty) → t.stbEn = s.stbEn))
    ∧ (¬ single → ¬ honoured → t.slot k = { s.slot k with st := .queued, abortReq := false }
      ∧ t.ptbEn = s.ptbEn ∧ t.stbEn = s.stbEn ∧ t.released = s.released ∧ t.flags = s.flags)

/-- EV_TX_START sends the scheduler's choice: the PTB if it is pending, else the pending STB slot that comes first by
identifier and stamp under ID priority, by stamp alone under FIFO order (41 R89, R98, R102 laws 1 to 3). A slot is pending
where it is Queued, its buffer is enabled, and TTC does not hold it for a trigger (10 R40, 44 R124). -/
def Obligations.TransmitStartSendsTheSchedulersChoice : Prop :=
  ∀ s : State,
    let pending : Nat → Prop := fun k => (s.slot k).st = .queued ∧ (if k = 0 then s.ptbEn = true else s.stbEn ≠ .off)
      ∧ ¬ (s.ttcEn = true ∧ k = s.ttcCfg.slotPtr.toNat ∧ s.released = false
        ∧ (s.ttcCfg.trigType = .singleShotTransmit ∨ s.ttcCfg.trigType = .transmitStart
          ∨ s.ttcCfg.trigType = .transmitStop))
    s.mode = .normal → s.busOff = false → (∀ k, (s.slot k).st ≠ .transmitting) →
    (∃ k, pending k) →
    ∃ k t, runEvent .txStart s = .next t ∧ t = { s with ptb := t.ptb, stb := t.stb } ∧ t.stb.length = s.stb.length
      ∧ pending k ∧ t.slot k = { s.slot k with st := .transmitting } ∧ (∀ j, j ≠ k → t.slot j = s.slot j)
      ∧ (pending 0 → k = 0)
      ∧ (¬ pending 0 → ∀ j, pending j →
        (s.txOpt.stbPrio = false → (s.slot k).seq ≤ (s.slot j).seq)
        ∧ (s.txOpt.stbPrio = true → (s.slot k).frame.id.toNat < (s.slot j).frame.id.toNat
          ∨ (s.slot k).frame.id = (s.slot j).frame.id ∧ (s.slot k).seq ≤ (s.slot j).seq))

/-- EV_TX_SUCCESS empties the slot, whatever abort was asked for, sets the done flag of its buffer, ends the enable of
the PTB or a one-frame enable of the STB, and counts a success (41 R99, R88; 44 R125; 43 R114). -/
def Obligations.TransmitSuccessEmptiesTheSlot : Prop :=
  ∀ (s : State) (k : Nat), s.inv1 = true → (s.slot k).st = .transmitting →
    ∃ u : State, runEvent .txSuccess s = .next (u.errUpdate .txOk default)
      ∧ u = { s with
          ptb := u.ptb, stb := u.stb, ptbEn := u.ptbEn, stbEn := u.stbEn, released := u.released, flags := u.flags }
      ∧ u.stb.length = s.stb.length ∧ u.slot k = { s.slot k with st := .empty, abortReq := false }
      ∧ (∀ j, j ≠ k → u.slot j = s.slot j)
      ∧ u.flags = (s.flags ||| if k = 0 then 0x0001 else 0x0002)
      ∧ u.ptbEn = (s.ptbEn && decide (k ≠ 0)) ∧ u.released = (s.released && decide (k ≠ s.ttcCfg.slotPtr.toNat))
      ∧ ((∀ j, (u.slot (j + 1)).st = .empty) → u.stbEn = .off)
      ∧ ((∃ j, (u.slot (j + 1)).st ≠ .empty) → u.stbEn = if k ≠ 0 ∧ s.stbEn = .one then .off else s.stbEn)

/-- EV_TX_ARB_LOST captures the position and sets ARB_LOST, EV_TX_ERROR captures the error type and sets BUS_ERROR; both
end the attempt by 41 R91, and only the second counts, after it (41 R100, R101). -/
def Obligations.LostAndFailedAttemptsAreRecorded : Prop :=
  ∀ (s : State) (k : Nat) (d : AbortDraw), s.inv1 = true → (s.slot k).st = .transmitting →
    (∀ pos, runEvent (.txArbLost pos d) s
      = .next ({ s with alc := pos, flags := s.flags ||| 0x0080 }.failAttempt k .arbLost d))
    ∧ (∀ t, t ≠ .none → runEvent (.txError t d) s
      = .next (({ s with lastErrorType := t, flags := s.flags ||| 0x0100 }.failAttempt k .txError d).errUpdate
          (.txErr t) d))

/-! ### The receive FIFO (42) -/

/-- RX_SET_CONFIG writes limit and policy if the limit is 1 to 8, ERR_SET_WARN_LIMIT writes the limit if it is not 0;
otherwise they answer CONFIG_ERROR and write nothing. No flag changes (42 R106, 43 R119). -/
def Obligations.LimitCommandsCheckTheirRange : Prop :=
  ∀ (a : BitVec 4) (p : RxPolicy) (l : BitVec 8) (s : State),
    (1 ≤ a.toNat → a.toNat ≤ 8 →
      exec (.rxSetConfig a p) s = .next { s with afwl := a, rxPolicy := p, resp := ⟨.ok, []⟩ })
    ∧ (a.toNat = 0 ∨ 9 ≤ a.toNat → exec (.rxSetConfig a p) s = .next { s with resp := ⟨.configError, []⟩ })
    ∧ (l ≠ 0 → exec (.errSetWarnLimit l) s = .next { s with ewl := l, resp := ⟨.ok, []⟩ })
    ∧ (l = 0 → exec (.errSetWarnLimit l) s = .next { s with resp := ⟨.configError, []⟩ })

/-- RX_PEEK answers the oldest frame in the layout of 30 R64 and 20 R50 and removes nothing; an empty FIFO answers EMPTY
(42 R107). -/
def Obligations.ReceivePeekAnswersTheOldestFrame : Prop :=
  ∀ s : State,
    (s.rx = [] → exec .rxPeek s = .next { s with resp := ⟨.empty, []⟩ })
    ∧ ∀ e rest, s.rx = e :: rest → ∃ (w1 w2 : Word) (ds : List Word),
      exec .rxPeek s = .next { s with resp := ⟨.ok, w1 :: w2 :: ds⟩ }
      ∧ field w1 0 29 = e.frame.id ∧ bitAt w1 29 = e.frame.ide ∧ bitAt w1 30 = e.frame.rtr ∧ bitAt w1 31 = false
      ∧ field w2 0 4 = e.frame.dlc ∧ bitAt w2 4 = e.frame.fdf ∧ bitAt w2 5 = e.frame.brs
      ∧ field w2 6 3 = (match e.errorType with
        | .none => 0
        | .bit => 1
        | .form => 2
        | .stuff => 3
        | .ack => 4
        | .crc => 5
        | .other => 6)
      ∧ field w2 9 7 = 0 ∧ field w2 16 16 = e.cycleTime
      ∧ ds.length = (e.frame.data.length + 3) / 4
      ∧ ∀ k, k < 4 * ds.length → field (ds.getD (k / 4) 0) (8 * (k % 4)) 8 = e.frame.data.getD k 0

/-- RX_RELEASE removes the oldest frame and clears RX_OVERFLOW and no other flag; an empty FIFO answers EMPTY (42 R108). -/
def Obligations.ReceiveReleaseRemovesTheOldestFrame : Prop :=
  ∀ s : State,
    (s.rx = [] → exec .rxRelease s = .next { s with resp := ⟨.empty, []⟩ })
    ∧ ∀ e rest, s.rx = e :: rest → ∃ t, exec .rxRelease s = .next t
      ∧ t = { s with rx := rest, flags := t.flags, resp := ⟨.ok, []⟩ }
      ∧ ∀ i, t.flags.getLsbD i = (s.flags.getLsbD i && decide (i ≠ 4))

/-- RX_STATUS_READ answers fill, FIFO status, limit, policy and RX_OVERFLOW in the layout of 42 R109, the status by R105:
Empty, Full, below the limit, or at it and above. -/
def Obligations.ReceiveStatusWordHasItsFields : Prop :=
  ∀ s : State, s.rx.length ≤ 8 → ∃ w : Word, exec .rxStatusRead s = .next { s with resp := ⟨.ok, [w]⟩ }
    ∧ (field w 0 4).toNat = s.rx.length
    ∧ (field w 4 2 = 0 ↔ s.rx.length = 0)
    ∧ (field w 4 2 = 3 ↔ s.rx.length = 8)
    ∧ (field w 4 2 = 1 ↔ 0 < s.rx.length ∧ s.rx.length < 8 ∧ s.rx.length < s.afwl.toNat)
    ∧ (field w 4 2 = 2 ↔ 0 < s.rx.length ∧ s.rx.length < 8 ∧ s.afwl.toNat ≤ s.rx.length)
    ∧ field w 6 4 = s.afwl ∧ (bitAt w 10 = true ↔ s.rxPolicy = .saveNew) ∧ bitAt w 11 = s.flags.getLsbD 4
    ∧ field w 12 20 = 0

/-- A frame is accepted if some enabled filter admits its kind and agrees with it in every identifier bit its mask
compares: the 1 bits, or the 0 bits under the other polarity; a standard frame has 11 bits, an extended one 29
(42 R103, R104). -/
def Obligations.AcceptanceComparesTheMaskedBits : Prop :=
  ∀ (s : State) (fr : TxFrame), s.accepted fr = true ↔
    ∃ flt ∈ s.filt, flt.en = true
      ∧ (flt.maskType = .both ∨ flt.maskType = .stdOnly ∧ fr.ide = false ∨ flt.maskType = .extOnly ∧ fr.ide = true)
      ∧ ∀ i, i < (if fr.ide then 29 else 11) → flt.mask.getLsbD i = s.params.maskOneCompares →
        fr.id.getLsbD i = flt.id.getLsbD i

/-- EV_RX_FRAME (42 R110; 44 R132, R133): the reception is counted; an accepted frame is appended with the timer of its
arrival, or meets the overflow policy at a full FIFO; a frame not accepted leaves FIFO and RX flags alone; a reference
message then restarts the timer. -/
def Obligations.ReceptionStoresAcceptedFrames : Prop :=
  ∀ (s : State) (fr : TxFrame) (et : ErrorType) (d : AbortDraw), s.mode = .normal → s.busOff = false →
    fr.wellFormed = true → fr.data.length = dataLen fr.dlc fr.fdf fr.rtr →
    let u := s.errUpdate .rxOk d
    let e : RxFrame := ⟨fr, et, if s.ttcEn then s.timer else 0⟩
    let isRef : Prop :=
      s.ttcEn = true ∧ fr.id = s.ttcCfg.refId ∧ fr.ide = s.ttcCfg.refIde
        ∧ (s.accepted fr = true ∨ s.params.refNeedsAccept = false)
    ∃ t, runEvent (.rxFrame fr et d) s = .next t
      ∧ t = { u with rx := t.rx, flags := t.flags, timer := t.timer, prescCnt := t.prescCnt }
      ∧ (∀ i, i ≠ 3 → i ≠ 4 → i ≠ 5 → t.flags.getLsbD i = u.flags.getLsbD i)
      ∧ (s.accepted fr = false → t.rx = s.rx ∧ t.flags = u.flags)
      ∧ (s.accepted fr = true → s.rx.length < 8 → t.rx = s.rx ++ [e] ∧ t.flags.getLsbD 3 = true
        ∧ t.flags.getLsbD 4 = s.flags.getLsbD 4
        ∧ t.flags.getLsbD 5 = (s.flags.getLsbD 5 || decide (s.rx.length + 1 = s.afwl.toNat)))
      ∧ (s.accepted fr = true → s.rx.length = 8 → t.flags.getLsbD 4 = true
        ∧ t.flags.getLsbD 5 = s.flags.getLsbD 5
        ∧ (s.rxPolicy = .discardNew → t.rx = s.rx ∧ t.flags.getLsbD 3 = s.flags.getLsbD 3)
        ∧ (s.rxPolicy = .saveNew → t.rx = s.rx.tail ++ [e] ∧ t.flags.getLsbD 3 = true))
      ∧ (isRef → t.timer = 0 ∧ t.prescCnt = 0)
      ∧ (¬ isRef → t.timer = s.timer ∧ t.prescCnt = s.prescCnt)

/-- Up to 8 accepted frames that arrive at an empty FIFO are returned by the driver's `Receive` in arrival order, each
once, whole and with its error class, and the FIFO is then empty (42 R112 law 1, R110, R107, R108; 46 R146; 20 R55). -/
def Obligations.ReceiveReturnsArrivalsInOrder : Prop :=
  ∀ (s t : State) (arrivals : List Arrival), s.rx = [] → arrivals.length ≤ 8 →
    (∀ a ∈ arrivals, s.accepted a.frame = true) → runInputs (arrivals.map Arrival.input) s = some t →
    ∃ out h, receiveDriver arrivals.length ⟨t, []⟩ = some (out, h)
      ∧ out.map (fun e => (e.frame, e.errorType)) = arrivals.map (fun a => (a.frame, a.errorType))
      ∧ h.block.rx = []

/-! ### The error state machine (43) -/

/-- One bus event moves the counters by the amounts ERR_DELTA gives it, saturating at 0 and 255, sets ERR_WARNING exactly
on an upward crossing of the limit, and enters bus-off where BUSOFF_TEC says so: an attempt in progress ends by 41 R91 with
the counters, the warning and bus-off already written, and everything else stays, Queued frames too (43 R113, R114, R116,
R123 laws 1 and 3). -/
def Obligations.CountersSaturateAndWarn : Prop :=
  ∀ (s : State) (ev : EvKind) (d : AbortDraw),
    let t := s.errUpdate ev d
    let delta := errDeltaOf s.params.errDelta ev
    let m0 := max s.recCount.toNat s.tecCount.toNat
    let m1 := max t.recCount.toNat t.tecCount.toNat
    let off : Prop := ∃ b, s.params.busOffTec = some b ∧ b ≤ t.tecCount.toNat ∧ s.busOff = false
    (t.recCount.toNat : Int) = min (max (s.recCount.toNat + delta.dRec) 0) 255
    ∧ (t.tecCount.toNat : Int) = min (max (s.tecCount.toNat + delta.dTec) 0) 255
    ∧ (t.flags.getLsbD 9 = true ↔ s.flags.getLsbD 9 = true ∨ m0 < s.ewl.toNat ∧ s.ewl.toNat ≤ m1)
    ∧ (∀ i, i ≠ 9 → i ≠ 2 → t.flags.getLsbD i = s.flags.getLsbD i)
    ∧ (off → t.busOff = true ∧ (s.inv1 = true → ∀ k, (t.slot k).st ≠ .transmitting)
      ∧ ((∀ k, (s.slot k).st ≠ .transmitting) →
        t = { s with recCount := t.recCount, tecCount := t.tecCount, busOff := true, flags := t.flags }
          ∧ t.flags.getLsbD 2 = s.flags.getLsbD 2)
      ∧ ∀ k, s.inv1 = true → (s.slot k).st = .transmitting →
        t = { s with
            recCount := t.recCount, tecCount := t.tecCount, busOff := true,
            flags := s.flags ||| if m0 < s.ewl.toNat ∧ s.ewl.toNat ≤ m1 then 0x0200 else 0 }.failAttempt k .busOff d)
    ∧ (¬ off → t = { s with recCount := t.recCount, tecCount := t.tecCount, flags := t.flags }
      ∧ t.flags.getLsbD 2 = s.flags.getLsbD 2)

/-- ERR_READ answers counters, bus-off, error-passive, the last fault, the arbitration-lost position and the limit in the
layout of 43 R120, error-passive by R115, and changes nothing. -/
def Obligations.ErrorReadWordsHaveTheirFields : Prop :=
  ∀ s : State, ∃ w1 w2 : Word, exec .errRead s = .next { s with resp := ⟨.ok, [w1, w2]⟩ }
    ∧ field w1 0 8 = s.recCount ∧ field w1 8 8 = s.tecCount ∧ bitAt w1 16 = s.busOff
    ∧ (bitAt w1 17 = true ↔ s.params.epTh ≤ s.recCount.toNat ∨ s.params.epTh ≤ s.tecCount.toNat)
    ∧ field w1 18 3 = (match s.lastErrorType with
      | .none => 0
      | .bit => 1
      | .form => 2
      | .stuff => 3
      | .ack => 4
      | .crc => 5
      | .other => 6)
    ∧ field w1 21 5 = s.alc ∧ field w1 26 6 = 0 ∧ field w2 0 8 = s.ewl ∧ field w2 8 24 = 0

/-- ERR_FORCE_BUSOFF needs the test work mode; it enters bus-off, ending the attempt in progress by 41 R91 with the bus
engine's choice a free value, and changes nothing in bus-off already (43 R121, R116; log 3). -/
def Obligations.ForceBusOffNeedsTestMode : Prop :=
  ∀ s : State,
    (s.workMode = .normal → exec .errForceBusOff s = .next { s with resp := ⟨.configError, []⟩ })
    ∧ (s.workMode = .test → s.busOff = true → exec .errForceBusOff s = .next { s with resp := ⟨.ok, []⟩ })
    ∧ (s.workMode = .test → s.busOff = false → (∀ k, (s.slot k).st ≠ .transmitting) →
      exec .errForceBusOff s = .next { s with busOff := true, resp := ⟨.ok, []⟩ })
    ∧ (∀ k, s.workMode = .test → s.busOff = false → s.inv1 = true → (s.slot k).st = .transmitting →
      exec .errForceBusOff s = .next
        { { s with busOff := true }.failAttempt k .busOff (abortDraw s.draws) with
          resp := ⟨.ok, []⟩, draws := s.draws + 1 })

/-- ERR_CLEAR_COUNTERS clears both counters in the test work mode and in bus-off, which it does not leave; otherwise it
answers CONFIG_ERROR and writes nothing (43 R122). -/
def Obligations.ClearCountersNeedsTestModeAndBusOff : Prop :=
  ∀ s : State,
    (s.workMode = .test → s.busOff = true →
      exec .errClearCounters s = .next { s with recCount := 0, tecCount := 0, resp := ⟨.ok, []⟩ })
    ∧ (s.workMode = .normal ∨ s.busOff = false →
      exec .errClearCounters s = .next { s with resp := ⟨.configError, []⟩ })

/-- EV_RX_ERROR captures the fault, sets BUS_ERROR and counts; EV_BUS_OFF enters bus-off and ends the attempt in
progress; EV_BUS_OFF_RECOVER leaves bus-off and clears both counters, in every mode (42 R111; 43 R116, R117, R118). -/
def Obligations.ErrorEventsWriteTheErrorState : Prop :=
  ∀ (s : State) (d : AbortDraw),
    (∀ t, t ≠ .none → s.mode = .normal → s.busOff = false → runEvent (.rxError t d) s
      = .next ({ s with lastErrorType := t, flags := s.flags ||| 0x0100 }.errUpdate (.rxErr t) d))
    ∧ (s.mode = .normal → s.busOff = false → (∀ k, (s.slot k).st ≠ .transmitting) →
      runEvent (.busOff d) s = .next { s with busOff := true })
    ∧ (∀ k, s.mode = .normal → s.busOff = false → s.inv1 = true → (s.slot k).st = .transmitting →
      runEvent (.busOff d) s = .next ({ s with busOff := true }.failAttempt k .busOff d))
    ∧ (s.busOff = true → runEvent .busOffRecover s = .next { s with busOff := false, recCount := 0, tecCount := 0 })

/-! ### The TTC scheduler (44) -/

/-- TTC_CONFIG writes the configuration, in either state and whether TTC is on or off, if slot, prescaler and a standard
reference identifier are legal; only a TransmitStop keeps a release; timer and prescaler counter stay (44 R126). -/
def Obligations.TtcConfigChecksAndWrites : Prop :=
  ∀ (c : TtcConfig) (s : State),
    let legal : Prop :=
      c.slotPtr.toNat ≤ s.stb.length ∧ c.presc ∈ s.params.ttcPrescOk ∧ (c.refIde = false → c.refId.toNat < 2 ^ 11)
    (legal → exec (.ttcConfig c) s = .next
      { s with
        ttcCfg := c, released := (s.released && decide (c.trigType = .transmitStop)), resp := ⟨.ok, []⟩ })
    ∧ (¬ legal → exec (.ttcConfig c) s = .next { s with resp := ⟨.configError, []⟩ })

/-- TTC_ENABLE restarts timer, prescaler counter and release on a rising edge, changes nothing when on already, and when
it disables freezes the timer and ends the release (44 R127). -/
def Obligations.TtcEnableRestartsOnTheRisingEdge : Prop :=
  ∀ s : State,
    (s.ttcEn = false → exec (.ttcEnable true) s = .next
      { s with ttcEn := true, timer := 0, prescCnt := 0, released := false, resp := ⟨.ok, []⟩ })
    ∧ (s.ttcEn = true → exec (.ttcEnable true) s = .next { s with resp := ⟨.ok, []⟩ })
    ∧ exec (.ttcEnable false) s = .next { s with ttcEn := false, released := false, resp := ⟨.ok, []⟩ }

/-- TTC_READ answers timer, enable and release in the layout of 44 R128 and changes nothing. -/
def Obligations.TtcReadWordHasItsFields : Prop :=
  ∀ s : State, ∃ w : Word, exec .ttcRead s = .next { s with resp := ⟨.ok, [w]⟩ }
    ∧ field w 0 16 = s.timer ∧ bitAt w 16 = s.ttcEn ∧ bitAt w 17 = s.released ∧ field w 18 14 = 0

/-- EV_CLK_TICK (44 R129 to R131): nothing while TTC is off; a count of the prescaler; or an advance of the timer,
wrapping, with the comparisons in the order of 60 R163 point 3: the window's close, the trigger, the watch. -/
def Obligations.ClockTickCountsAndCompares : Prop :=
  ∀ s : State,
    (s.ttcEn = false → runEvent .clkTick s = .next s)
    ∧ (s.ttcEn = true → s.prescCnt.toNat + 1 < s.ttcCfg.presc.toNat →
      runEvent .clkTick s = .next { s with prescCnt := s.prescCnt + 1 })
    ∧ (s.ttcEn = true → s.ttcCfg.presc.toNat ≤ s.prescCnt.toNat + 1 → ∃ t, runEvent .clkTick s = .next t
      ∧ t = { s with prescCnt := 0, timer := t.timer, released := t.released, flags := t.flags }
      ∧ t.timer.toNat = (s.timer.toNat + 1) % 2 ^ 16
      ∧ (∀ i, t.flags.getLsbD i = (s.flags.getLsbD i || decide (i = 12) && t.timer == s.ttcCfg.trigTime
        || decide (i = 13) && t.timer == s.ttcCfg.watchTime))
      ∧ (t.timer = s.ttcCfg.trigTime →
        (s.ttcCfg.trigType = .singleShotTransmit ∨ s.ttcCfg.trigType = .transmitStart → t.released = true)
        ∧ (s.ttcCfg.trigType = .transmitStop → t.released = false)
        ∧ (s.ttcCfg.trigType = .immediate ∨ s.ttcCfg.trigType = .time → t.released = s.released))
      ∧ (t.timer ≠ s.ttcCfg.trigTime → t.released = (s.released && !decide
        (s.ttcCfg.trigType = .singleShotTransmit
          ∧ t.timer.toNat = (s.ttcCfg.trigTime.toNat + s.ttcCfg.tew.toNat + 1) % 2 ^ 16))))

/-- After a reference reset, with prescaler 1 and trigger time `T ≥ 1`, TTC_TRIGGER is set by the `T`-th tick, in the
step in which the timer becomes `T`, and by no earlier step, whatever the agents do in between, as long as no other
reference arrives and no command rewrites the TTC state (44 R134 law 1, R129, R130, R132). -/
def Obligations.TriggerFlagIsSetByTheTthTick : Prop :=
  ∀ (s : State) (between : List Input),
    s.ttcEn = true → s.timer = 0 → s.prescCnt = 0 → s.ttcCfg.presc = 1 → s.ttcCfg.trigTime ≠ 0 →
    (∀ i ∈ between, keepsTtcRunning s.ttcCfg i = true) →
    (∀ u, (between.filter isTick).length < s.ttcCfg.trigTime.toNat → runInputs between s = some u →
      u.timer.toNat = (between.filter isTick).length ∧ (u.flag .ttcTrigger = true → s.flag .ttcTrigger = true))
    ∧ (∀ t, (between.filter isTick).length + 1 = s.ttcCfg.trigTime.toNat →
      runInputs (between ++ [.event .clkTick]) s = some t →
        t.timer = s.ttcCfg.trigTime ∧ t.flag .ttcTrigger = true)

/-- If no reference message arrives for `watchTime × presc` ticks after a reference reset, the last of them sets
TTC_WATCH_TRIGGER, and no earlier step does, whatever else the agents do in between short of rewriting the TTC state
(44 R134 laws 2 and 3, R129, R130). -/
def Obligations.WatchTriggerTellsALostReference : Prop :=
  ∀ (s : State) (between : List Input),
    s.ttcEn = true → s.timer = 0 → s.prescCnt = 0 → s.ttcCfg.presc ≠ 0 → s.ttcCfg.watchTime ≠ 0 →
    (∀ i ∈ between, keepsTtcRunning s.ttcCfg i = true) →
    (∀ u, (between.filter isTick).length < s.ttcCfg.watchTime.toNat * s.ttcCfg.presc.toNat →
      runInputs between s = some u → u.flag .ttcWatchTrigger = true → s.flag .ttcWatchTrigger = true)
    ∧ (∀ t, (between.filter isTick).length + 1 = s.ttcCfg.watchTime.toNat * s.ttcCfg.presc.toNat →
      runInputs (between ++ [.event .clkTick]) s = some t →
        t.timer = s.ttcCfg.watchTime ∧ t.flag .ttcWatchTrigger = true)

/-! ### Flags and the interrupt request (45) -/

/-- STATUS_READ answers the flag view, the latches for the latched flags and the state for the status bits, and the
enables, in the layout of 45 R137, and clears nothing; the interrupt request is up exactly if some bit is in view and
enabled (R135, R140). -/
def Obligations.StatusReadShowsTheFlagView : Prop :=
  ∀ s : State, ∃ w : Word, exec .statusRead s = .next { s with resp := ⟨.ok, [w]⟩ }
    ∧ (∀ i, i < 14 → i ≠ 6 → i ≠ 10 → i ≠ 11 → bitAt w i = s.flags.getLsbD i)
    ∧ (bitAt w 6 = true ↔ s.rx.length = 8)
    ∧ (bitAt w 10 = true ↔ s.params.epTh ≤ s.recCount.toNat ∨ s.params.epTh ≤ s.tecCount.toNat)
    ∧ bitAt w 11 = s.busOff
    ∧ field w 14 2 = 0 ∧ field w 16 14 = s.ie ∧ field w 30 2 = 0
    ∧ (s.irq = true ↔ ∃ i, i < 14 ∧ bitAt w i = true ∧ s.ie.getLsbD i = true)

/-- STATUS_CLEAR clears the latched flags its mask names, but never RX_OVERFLOW, and nothing else (45 R138). -/
def Obligations.StatusClearSparesTheOverflowFlag : Prop :=
  ∀ (mask : BitVec 14) (s : State), ∃ t, exec (.statusClear mask) s = .next t
    ∧ t = { s with flags := t.flags, resp := ⟨.ok, []⟩ }
    ∧ (∀ i, i ∈ [4, 6, 10, 11] → t.flags.getLsbD i = s.flags.getLsbD i)
    ∧ (∀ i, i ∉ [4, 6, 10, 11] → t.flags.getLsbD i = (s.flags.getLsbD i && !mask.getLsbD i))

/-- INT_ENABLE writes the enables its mask names, and nothing else; an enabled flag already in view raises the request at
once (45 R139, R140). -/
def Obligations.InterruptEnableWritesTheMaskedEnables : Prop :=
  ∀ (mask : BitVec 14) (en : Bool) (s : State), ∃ t, exec (.intEnable mask en) s = .next t
    ∧ t = { s with ie := t.ie, resp := ⟨.ok, []⟩ }
    ∧ (∀ i, i < 14 → t.ie.getLsbD i = if mask.getLsbD i then en else s.ie.getLsbD i)
    ∧ (∀ i, i < 14 → en = true → mask.getLsbD i = true → s.viewBit i = true → t.irq = true)

/-! ### The driver (46) -/

/-- `Init` with an argument that breaks a check returns ConfigurationError and issues no command, so bit timing is
unmodified; with legal arguments and nothing else going on it succeeds, leaves the block in normal state with the
registers and filters as given, and BT_READ answers the tuple given (46 R141). The arguments' widths are the model's
(log 19). -/
def Obligations.InitProgramsTheBlockOrTouchesNothing : Prop :=
  ∀ (c : InitConfig) (s : State),
    (initValid s c = false → ∀ others, initDriver c ⟨s, others⟩ = some (.configurationError, ⟨s, others⟩))
    ∧ (initValid s c = true → s.inv = true → s.filt.length ≤ 16 →
      ∃ h, initDriver c ⟨s, []⟩ = some (.ok, h) ∧ h.block.mode = .normal ∧ h.block.workMode = c.workMode
        ∧ h.block.btSlow = c.btSlow ∧ (∀ b, c.btFast = some b → h.block.btFast = b) ∧ h.block.txOpt = c.txOpt
        ∧ h.block.afwl = c.afwl ∧ h.block.rxPolicy = c.rxPolicy ∧ h.block.ewl = c.ewl ∧ h.block.ie = c.ie
        ∧ (∀ (j : Nat) (f : Sys2Proof.Filter), h.block.filt[j]? = some f → f.en = c.filterSel.getLsbD j)
        ∧ (∀ (n j : Nat) (g : HostFilter), (selectedFilters c.filterSel)[n]? = some j → c.filters[n]? = some g →
          h.block.filt[j]? = some (⟨g.id, g.idMask, g.maskType, true⟩ : Sys2Proof.Filter))
        ∧ ∃ t, exec (.btRead .slow) h.block = .next t ∧ t.resp = ⟨.ok, [c.btSlow.word]⟩)

end
end

