-- ==== Sys2Proof/Laws/Bits.lean ====
section
/-! SUPPORT. Bit fields, concatenations and packed data as arithmetic: each lemma turns one operation on words into
division, remainder, multiplication and addition on naturals, so that a statement about fields is a linear one. -/

namespace Sys2Proof

theorem field_toNat (w : Word) (lo len : Nat) : (field w lo len).toNat = w.toNat / 2 ^ lo % 2 ^ len := by
  simp [field, BitVec.extractLsb'_toNat, Nat.shiftRight_eq_div_pow]

theorem bitAt_eq (w : Word) (i : Nat) : bitAt w i = decide (w.toNat / 2 ^ i % 2 = 1) := by
  simp [bitAt, BitVec.getLsbD, Nat.testBit_eq_decide_div_mod_eq]

theorem zeroAt_eq (w : Word) (lo len : Nat) : zeroAt w lo len = decide (w.toNat / 2 ^ lo % 2 ^ len = 0) := by
  rw [Bool.eq_iff_iff, decide_eq_true_eq, ← field_toNat, zeroAt, beq_iff_eq]
  exact ⟨fun h => by simp [h], fun h => BitVec.eq_of_toNat_eq (by simpa using h)⟩

theorem byteOf_toNat (w : Word) (r : Nat) : (byteOf w r).toNat = w.toNat / 2 ^ (8 * r) % 256 := field_toNat w _ 8

theorem bit1_toNat (b : Bool) : (bit1 b).toNat = b.toNat := by cases b <;> rfl

/-- A concatenation as arithmetic: the left part counts `2 ^ m`. -/
theorem append_toNat {n m : Nat} (a : BitVec n) (b : BitVec m) : (a ++ b).toNat = a.toNat * 2 ^ m + b.toNat := by
  rw [BitVec.toNat_append, Nat.shiftLeft_eq, Nat.mul_comm, Nat.two_pow_add_eq_or_of_lt b.isLt]

/-! ### Packed data (20 R50) -/

theorem packWord_toNat (data : List Byte) (j : Nat) :
    (packWord data j).toNat = (data.getD (4 * j) 0).toNat + (data.getD (4 * j + 1) 0).toNat * 2 ^ 8
      + (data.getD (4 * j + 2) 0).toNat * 2 ^ 16 + (data.getD (4 * j + 3) 0).toNat * 2 ^ 24 := by
  simp only [packWord, append_toNat]
  omega

/-- Byte `r` of data word `j` is byte `4 j + r` of the data. -/
theorem byteOf_packWord (data : List Byte) (j r : Nat) (hr : r < 4) :
    byteOf (packWord data j) r = data.getD (4 * j + r) 0 := by
  apply BitVec.eq_of_toNat_eq
  rw [byteOf_toNat, packWord_toNat]
  have h0 := (data.getD (4 * j) 0).isLt
  have h1 := (data.getD (4 * j + 1) 0).isLt
  have h2 := (data.getD (4 * j + 2) 0).isLt
  have h3 := (data.getD (4 * j + 3) 0).isLt
  obtain rfl | rfl | rfl | rfl : r = 0 ∨ r = 1 ∨ r = 2 ∨ r = 3 := by omega
  all_goals simp only [Nat.mul_zero, Nat.mul_one, Nat.reduceMul, Nat.pow_zero, Nat.add_zero]; omega

@[simp] theorem packData_length (data : List Byte) : (packData data).length = dataWordCount data.length := by
  simp [packData]

/-- Reading byte `k` out of the packed data gives byte `k`, and 0 behind the last. -/
theorem dataByte_packData (data : List Byte) (k : Nat) (hk : k < 4 * dataWordCount data.length) :
    dataByte (packData data) k = data.getD k 0 := by
  have hlt : k / 4 < dataWordCount data.length := by omega
  rw [dataByte, packData, List.getD_eq_getElem _ _ (by simpa using hlt)]
  simp only [List.getElem_map, List.getElem_range]
  rw [byteOf_packWord _ _ _ (by omega)]
  congr 1
  omega

/-- Packing loses no byte. -/
theorem unpackData_packData (data : List Byte) : unpackData data.length (packData data) = data := by
  apply List.ext_getElem
  · simp [unpackData]
  · intro i hi hi'
    simp only [unpackData, List.getElem_map, List.getElem_range]
    rw [dataByte_packData _ _ (by simp only [dataWordCount]; omega), List.getD_eq_getElem _ _ hi']

/-- Unused bytes of the last word are 0. -/
theorem unusedBytesZero_packData (data : List Byte) : unusedBytesZero data.length (packData data) = true := by
  simp only [unusedBytesZero, packData_length, List.all_eq_true, List.mem_range, Bool.or_eq_true, decide_eq_true_eq,
    beq_iff_eq]
  intro k hk
  by_cases h : k < data.length
  · exact .inl h
  · right
    rw [dataByte_packData _ _ hk, List.getD_eq_default _ _ (by omega)]
    rfl

/-- A word is its four bytes. -/
theorem word_eq_of_bytes {a b : Word} (h : ∀ r, r < 4 → byteOf a r = byteOf b r) : a = b := by
  apply BitVec.eq_of_toNat_eq
  have h0 := congrArg BitVec.toNat (h 0 (by omega))
  have h1 := congrArg BitVec.toNat (h 1 (by omega))
  have h2 := congrArg BitVec.toNat (h 2 (by omega))
  have h3 := congrArg BitVec.toNat (h 3 (by omega))
  simp only [byteOf_toNat, Nat.mul_zero, Nat.mul_one, Nat.reduceMul] at h0 h1 h2 h3
  have := a.isLt
  have := b.isLt
  omega

/-- Unpacking loses nothing of words whose unused bytes are 0. -/
theorem packData_unpackData {n : Nat} {ws : List Word} (hl : ws.length = dataWordCount n)
    (hz : unusedBytesZero n ws = true) : packData (unpackData n ws) = ws := by
  have hn : (unpackData n ws).length = n := by simp [unpackData]
  apply List.ext_getElem
  · simp [hn, hl]
  · intro i hi hi'
    apply word_eq_of_bytes
    intro r hr
    have hk : 4 * i + r < 4 * ws.length := by omega
    have h1 : byteOf ws[i] r = dataByte ws (4 * i + r) := by
      rw [dataByte, show (4 * i + r) / 4 = i by omega, show (4 * i + r) % 4 = r by omega, List.getD_eq_getElem _ _ hi']
    have h2 : (packData (unpackData n ws))[i] = packWord (unpackData n ws) i := by simp [packData]
    rw [h1, h2, byteOf_packWord _ _ _ hr]
    simp only [unusedBytesZero, List.all_eq_true, List.mem_range, Bool.or_eq_true, decide_eq_true_eq, beq_iff_eq] at hz
    by_cases h : 4 * i + r < n
    · rw [List.getD_eq_getElem _ _ (by omega)]
      simp [unpackData]
    · rw [List.getD_eq_default _ _ (by omega)]
      rcases hz _ hk with h' | h'
      · omega
      · exact h'.symm

/-! ### Lengths (00 R16) -/

theorem fdDataLen_le (dlc : BitVec 4) : fdDataLen dlc ≤ 64 := by
  revert dlc; decide

/-- No frame carries more than DATA_MAX = 64 bytes (00 R9). -/
theorem dataLen_le (dlc : BitVec 4) (fdf rtr : Bool) : dataLen dlc fdf rtr ≤ 64 := by
  have := fdDataLen_le dlc
  unfold dataLen
  split
  · omega
  · split <;> omega

/-! ### Opcodes -/

/-- The lookup of a code finds its opcode: no two opcodes share a code (30 R70). -/
theorem Opcode.ofCode_code (o : Opcode) : Opcode.ofCode o.code = some o := by cases o <;> decide

theorem Opcode.code_of_ofCode {c : BitVec 8} {o : Opcode} (h : Opcode.ofCode c = some o) : o.code = c := by
  simpa using List.find?_some h

/-- The opcode stands in `W0[31:24]` (30 R60). -/
theorem Instr.w0_opcode (i : Instr) : field i.w0 24 8 = i.opcode.code := by
  apply BitVec.eq_of_toNat_eq
  simp only [field_toNat, Instr.w0, append_toNat]
  have := i.opcode.code.isLt
  have := i.w0Fields.isLt
  omega

/-- The fields stand in `W0[23:0]` (30 R60). -/
theorem Instr.w0_toNat (i : Instr) : i.w0.toNat = i.opcode.code.toNat * 2 ^ 24 + i.w0Fields.toNat :=
  append_toNat _ _

/-! ### Codes: every enumeration is read back from its code, and a code names one value (30 R65, R66, R70, R72) -/

theorem WorkMode.ofCode_code (m : WorkMode) : WorkMode.ofCode m.code = some m := by cases m <;> rfl
theorem WorkMode.code_of_ofCode : ∀ c m, WorkMode.ofCode c = some m → m.code = c := by decide
theorem MaskType.ofCode_code (m : MaskType) : MaskType.ofCode m.code = some m := by cases m <;> rfl
theorem MaskType.code_of_ofCode : ∀ c m, MaskType.ofCode c = some m → m.code = c := by decide
theorem TxSelect.ofCode_code (m : TxSelect) : TxSelect.ofCode m.code = some m := by cases m <;> rfl
theorem TxSelect.code_of_ofCode : ∀ c m, TxSelect.ofCode c = some m → m.code = c := by decide
theorem TrigType.ofCode_code (m : TrigType) : TrigType.ofCode m.code = some m := by cases m <;> rfl
theorem TrigType.code_of_ofCode : ∀ c m, TrigType.ofCode c = some m → m.code = c := by decide
theorem ErrorType.ofCode_code (m : ErrorType) : ErrorType.ofCode m.code = some m := by cases m <;> rfl
theorem ErrorType.code_of_ofCode : ∀ c m, ErrorType.ofCode c = some m → m.code = c := by decide
theorem Phase.ofBit_bit (m : Phase) : Phase.ofBit m.bit = m := by cases m <;> rfl
theorem Phase.bit_ofBit : ∀ b, (Phase.ofBit b).bit = b := by decide
theorem TxBuffer.ofBit_bit (m : TxBuffer) : TxBuffer.ofBit m.bit = m := by cases m <;> rfl
theorem TxBuffer.bit_ofBit : ∀ b, (TxBuffer.ofBit b).bit = b := by decide
theorem RxPolicy.ofBit_bit (m : RxPolicy) : RxPolicy.ofBit m.bit = m := by cases m <;> rfl
theorem RxPolicy.bit_ofBit : ∀ b, (RxPolicy.ofBit b).bit = b := by decide

/-! ### Whole words -/

theorem bitAt_toNat (w : Word) (i : Nat) : (bitAt w i).toNat = w.toNat / 2 ^ i % 2 := by
  rw [bitAt_eq]
  have : w.toNat / 2 ^ i % 2 < 2 := Nat.mod_lt _ (by omega)
  by_cases h : w.toNat / 2 ^ i % 2 = 1
  · simp [h]
  · simp only [h, decide_false, Bool.toNat_false]; omega

/-- A tuple is read back from its word (30 R63). -/
theorem BitTiming.ofWord_word (t : BitTiming) : BitTiming.ofWord t.word = t := by
  obtain ⟨a, b, c, d⟩ := t
  have := a.isLt; have := b.isLt; have := c.isLt; have := d.isLt
  simp only [BitTiming.ofWord, BitTiming.word, BitTiming.mk.injEq]
  refine ⟨?_, ?_, ?_, ?_⟩ <;> apply BitVec.eq_of_toNat_eq <;> simp only [field_toNat, append_toNat] <;> omega

theorem BitTiming.word_ofWord (w : Word) : (BitTiming.ofWord w).word = w := by
  apply BitVec.eq_of_toNat_eq
  have := w.isLt
  simp only [BitTiming.word, BitTiming.ofWord, append_toNat, field_toNat]
  omega

/-- A word with a command's opcode over that command's fields is the command's first word (30 R60). -/
theorem Instr.w0_eq {w0 : Word} {i : Instr} (h1 : field w0 24 8 = i.opcode.code)
    (h2 : w0.toNat % 2 ^ 24 = i.w0Fields.toNat) : i.w0 = w0 := by
  apply BitVec.eq_of_toNat_eq
  have := congrArg BitVec.toNat h1
  rw [field_toNat] at this
  rw [Instr.w0_toNat]
  have := w0.isLt
  omega

/-- What a transaction that decodes looks like: an assigned opcode, the word count it asks for, and fields it reads. -/
theorem decode_ok {ws : List Word} {i : Instr} (h : decode ws = .ok i) :
    ∃ w0 rest, ∃ o : Opcode, ws = w0 :: rest ∧ field w0 24 8 = o.code ∧ 1 + rest.length = o.wordCount rest
      ∧ o.fields w0 (rest.getD 0 0) (rest.getD 1 0) (rest.getD 2 0) (rest.drop 2) = some i := by
  cases ws with
  | nil => simp [decode] at h
  | cons w0 rest =>
    unfold decode at h
    rcases ho : Opcode.ofCode (field w0 24 8) with _ | o
    · simp only [ho] at h; cases h
    · simp only [ho] at h
      by_cases hl : 1 + rest.length = o.wordCount rest
      · rw [if_neg (by simpa using hl)] at h
        rcases hf : o.fields w0 (rest.getD 0 0) (rest.getD 1 0) (rest.getD 2 0) (rest.drop 2) with _ | j
        · simp only [hf] at h; cases h
        · simp only [hf] at h; cases h
          exact ⟨w0, rest, o, rfl, (Opcode.code_of_ofCode ho).symm, hl, hf⟩
      · rw [if_pos (by simpa using hl)] at h; cases h

/-- The four conditions on a well-formed frame (00 R18). -/
theorem TxFrame.wellFormed_iff (f : TxFrame) : f.wellFormed = true ↔
    (f.ide = false → f.id.toNat < 2 ^ 11) ∧ (f.ide = true → f.id.toNat < 2 ^ 29) ∧ (f.brs = true → f.fdf = true)
      ∧ (f.fdf = true → f.rtr = false) := by
  unfold TxFrame.wellFormed
  cases f.ide <;> cases f.brs <;> cases f.fdf <;> cases f.rtr <;> simp

end Sys2Proof
end

