-- ==== Sys2Proof/Laws/State.lean ====
section
/-! SUPPORT. One lemma per field for every named update of the state, so that no proof unfolds one. -/

namespace Sys2Proof.Machine

/-! ### The response (00 R11). -/

@[simp] theorem State.respond_resp (s : State) (c : ResultCode) (w : List Word) : (s.respond c w).resp =
    ⟨c, w⟩ := rfl
@[simp] theorem State.respond_mode (s : State) (c : ResultCode) (w : List Word) : (s.respond c w).mode = s.mode := rfl
@[simp] theorem State.respond_workMode (s : State) (c : ResultCode) (w : List Word) : (s.respond c w).workMode = s.workMode := rfl
@[simp] theorem State.respond_btSlow (s : State) (c : ResultCode) (w : List Word) : (s.respond c w).btSlow = s.btSlow := rfl
@[simp] theorem State.respond_btFast (s : State) (c : ResultCode) (w : List Word) : (s.respond c w).btFast = s.btFast := rfl
@[simp] theorem State.respond_filt (s : State) (c : ResultCode) (w : List Word) : (s.respond c w).filt = s.filt := rfl
@[simp] theorem State.respond_txOpt (s : State) (c : ResultCode) (w : List Word) : (s.respond c w).txOpt = s.txOpt := rfl
@[simp] theorem State.respond_afwl (s : State) (c : ResultCode) (w : List Word) : (s.respond c w).afwl = s.afwl := rfl
@[simp] theorem State.respond_rxPolicy (s : State) (c : ResultCode) (w : List Word) : (s.respond c w).rxPolicy = s.rxPolicy := rfl
@[simp] theorem State.respond_ewl (s : State) (c : ResultCode) (w : List Word) : (s.respond c w).ewl = s.ewl := rfl
@[simp] theorem State.respond_ttcCfg (s : State) (c : ResultCode) (w : List Word) : (s.respond c w).ttcCfg = s.ttcCfg := rfl
@[simp] theorem State.respond_ie (s : State) (c : ResultCode) (w : List Word) : (s.respond c w).ie = s.ie := rfl
@[simp] theorem State.respond_ptb (s : State) (c : ResultCode) (w : List Word) : (s.respond c w).ptb = s.ptb := rfl
@[simp] theorem State.respond_stb (s : State) (c : ResultCode) (w : List Word) : (s.respond c w).stb = s.stb := rfl
@[simp] theorem State.respond_fillPtr (s : State) (c : ResultCode) (w : List Word) : (s.respond c w).fillPtr = s.fillPtr := rfl
@[simp] theorem State.respond_ptbEn (s : State) (c : ResultCode) (w : List Word) : (s.respond c w).ptbEn = s.ptbEn := rfl
@[simp] theorem State.respond_stbEn (s : State) (c : ResultCode) (w : List Word) : (s.respond c w).stbEn = s.stbEn := rfl
@[simp] theorem State.respond_nextSeq (s : State) (c : ResultCode) (w : List Word) : (s.respond c w).nextSeq = s.nextSeq := rfl
@[simp] theorem State.respond_rx (s : State) (c : ResultCode) (w : List Word) : (s.respond c w).rx = s.rx := rfl
@[simp] theorem State.respond_recCount (s : State) (c : ResultCode) (w : List Word) : (s.respond c w).recCount = s.recCount := rfl
@[simp] theorem State.respond_tecCount (s : State) (c : ResultCode) (w : List Word) : (s.respond c w).tecCount = s.tecCount := rfl
@[simp] theorem State.respond_busOff (s : State) (c : ResultCode) (w : List Word) : (s.respond c w).busOff = s.busOff := rfl
@[simp] theorem State.respond_lastErrorType (s : State) (c : ResultCode) (w : List Word) : (s.respond c w).lastErrorType = s.lastErrorType := rfl
@[simp] theorem State.respond_alc (s : State) (c : ResultCode) (w : List Word) : (s.respond c w).alc = s.alc := rfl
@[simp] theorem State.respond_ttcEn (s : State) (c : ResultCode) (w : List Word) : (s.respond c w).ttcEn = s.ttcEn := rfl
@[simp] theorem State.respond_timer (s : State) (c : ResultCode) (w : List Word) : (s.respond c w).timer = s.timer := rfl
@[simp] theorem State.respond_prescCnt (s : State) (c : ResultCode) (w : List Word) : (s.respond c w).prescCnt = s.prescCnt := rfl
@[simp] theorem State.respond_released (s : State) (c : ResultCode) (w : List Word) : (s.respond c w).released = s.released := rfl
@[simp] theorem State.respond_flags (s : State) (c : ResultCode) (w : List Word) : (s.respond c w).flags = s.flags := rfl
@[simp] theorem State.respond_params (s : State) (c : ResultCode) (w : List Word) : (s.respond c w).params = s.params := rfl
@[simp] theorem State.respond_inputs (s : State) (c : ResultCode) (w : List Word) : (s.respond c w).inputs = s.inputs := rfl
@[simp] theorem State.respond_draws (s : State) (c : ResultCode) (w : List Word) : (s.respond c w).draws = s.draws := rfl

/-! ### Setting a flag (45 R136). -/

@[simp] theorem State.setFlag_flags (s : State) (g : Flag) : (s.setFlag g).flags =
    s.flags ||| g.mask := rfl
@[simp] theorem State.setFlag_resp (s : State) (g : Flag) : (s.setFlag g).resp = s.resp := rfl
@[simp] theorem State.setFlag_mode (s : State) (g : Flag) : (s.setFlag g).mode = s.mode := rfl
@[simp] theorem State.setFlag_workMode (s : State) (g : Flag) : (s.setFlag g).workMode = s.workMode := rfl
@[simp] theorem State.setFlag_btSlow (s : State) (g : Flag) : (s.setFlag g).btSlow = s.btSlow := rfl
@[simp] theorem State.setFlag_btFast (s : State) (g : Flag) : (s.setFlag g).btFast = s.btFast := rfl
@[simp] theorem State.setFlag_filt (s : State) (g : Flag) : (s.setFlag g).filt = s.filt := rfl
@[simp] theorem State.setFlag_txOpt (s : State) (g : Flag) : (s.setFlag g).txOpt = s.txOpt := rfl
@[simp] theorem State.setFlag_afwl (s : State) (g : Flag) : (s.setFlag g).afwl = s.afwl := rfl
@[simp] theorem State.setFlag_rxPolicy (s : State) (g : Flag) : (s.setFlag g).rxPolicy = s.rxPolicy := rfl
@[simp] theorem State.setFlag_ewl (s : State) (g : Flag) : (s.setFlag g).ewl = s.ewl := rfl
@[simp] theorem State.setFlag_ttcCfg (s : State) (g : Flag) : (s.setFlag g).ttcCfg = s.ttcCfg := rfl
@[simp] theorem State.setFlag_ie (s : State) (g : Flag) : (s.setFlag g).ie = s.ie := rfl
@[simp] theorem State.setFlag_ptb (s : State) (g : Flag) : (s.setFlag g).ptb = s.ptb := rfl
@[simp] theorem State.setFlag_stb (s : State) (g : Flag) : (s.setFlag g).stb = s.stb := rfl
@[simp] theorem State.setFlag_fillPtr (s : State) (g : Flag) : (s.setFlag g).fillPtr = s.fillPtr := rfl
@[simp] theorem State.setFlag_ptbEn (s : State) (g : Flag) : (s.setFlag g).ptbEn = s.ptbEn := rfl
@[simp] theorem State.setFlag_stbEn (s : State) (g : Flag) : (s.setFlag g).stbEn = s.stbEn := rfl
@[simp] theorem State.setFlag_nextSeq (s : State) (g : Flag) : (s.setFlag g).nextSeq = s.nextSeq := rfl
@[simp] theorem State.setFlag_rx (s : State) (g : Flag) : (s.setFlag g).rx = s.rx := rfl
@[simp] theorem State.setFlag_recCount (s : State) (g : Flag) : (s.setFlag g).recCount = s.recCount := rfl
@[simp] theorem State.setFlag_tecCount (s : State) (g : Flag) : (s.setFlag g).tecCount = s.tecCount := rfl
@[simp] theorem State.setFlag_busOff (s : State) (g : Flag) : (s.setFlag g).busOff = s.busOff := rfl
@[simp] theorem State.setFlag_lastErrorType (s : State) (g : Flag) : (s.setFlag g).lastErrorType = s.lastErrorType := rfl
@[simp] theorem State.setFlag_alc (s : State) (g : Flag) : (s.setFlag g).alc = s.alc := rfl
@[simp] theorem State.setFlag_ttcEn (s : State) (g : Flag) : (s.setFlag g).ttcEn = s.ttcEn := rfl
@[simp] theorem State.setFlag_timer (s : State) (g : Flag) : (s.setFlag g).timer = s.timer := rfl
@[simp] theorem State.setFlag_prescCnt (s : State) (g : Flag) : (s.setFlag g).prescCnt = s.prescCnt := rfl
@[simp] theorem State.setFlag_released (s : State) (g : Flag) : (s.setFlag g).released = s.released := rfl
@[simp] theorem State.setFlag_params (s : State) (g : Flag) : (s.setFlag g).params = s.params := rfl
@[simp] theorem State.setFlag_inputs (s : State) (g : Flag) : (s.setFlag g).inputs = s.inputs := rfl
@[simp] theorem State.setFlag_draws (s : State) (g : Flag) : (s.setFlag g).draws = s.draws := rfl

/-! ### Clearing a flag (45 R136). -/

@[simp] theorem State.clearFlag_flags (s : State) (g : Flag) : (s.clearFlag g).flags =
    s.flags &&& ~~~g.mask := rfl
@[simp] theorem State.clearFlag_resp (s : State) (g : Flag) : (s.clearFlag g).resp = s.resp := rfl
@[simp] theorem State.clearFlag_mode (s : State) (g : Flag) : (s.clearFlag g).mode = s.mode := rfl
@[simp] theorem State.clearFlag_workMode (s : State) (g : Flag) : (s.clearFlag g).workMode = s.workMode := rfl
@[simp] theorem State.clearFlag_btSlow (s : State) (g : Flag) : (s.clearFlag g).btSlow = s.btSlow := rfl
@[simp] theorem State.clearFlag_btFast (s : State) (g : Flag) : (s.clearFlag g).btFast = s.btFast := rfl
@[simp] theorem State.clearFlag_filt (s : State) (g : Flag) : (s.clearFlag g).filt = s.filt := rfl
@[simp] theorem State.clearFlag_txOpt (s : State) (g : Flag) : (s.clearFlag g).txOpt = s.txOpt := rfl
@[simp] theorem State.clearFlag_afwl (s : State) (g : Flag) : (s.clearFlag g).afwl = s.afwl := rfl
@[simp] theorem State.clearFlag_rxPolicy (s : State) (g : Flag) : (s.clearFlag g).rxPolicy = s.rxPolicy := rfl
@[simp] theorem State.clearFlag_ewl (s : State) (g : Flag) : (s.clearFlag g).ewl = s.ewl := rfl
@[simp] theorem State.clearFlag_ttcCfg (s : State) (g : Flag) : (s.clearFlag g).ttcCfg = s.ttcCfg := rfl
@[simp] theorem State.clearFlag_ie (s : State) (g : Flag) : (s.clearFlag g).ie = s.ie := rfl
@[simp] theorem State.clearFlag_ptb (s : State) (g : Flag) : (s.clearFlag g).ptb = s.ptb := rfl
@[simp] theorem State.clearFlag_stb (s : State) (g : Flag) : (s.clearFlag g).stb = s.stb := rfl
@[simp] theorem State.clearFlag_fillPtr (s : State) (g : Flag) : (s.clearFlag g).fillPtr = s.fillPtr := rfl
@[simp] theorem State.clearFlag_ptbEn (s : State) (g : Flag) : (s.clearFlag g).ptbEn = s.ptbEn := rfl
@[simp] theorem State.clearFlag_stbEn (s : State) (g : Flag) : (s.clearFlag g).stbEn = s.stbEn := rfl
@[simp] theorem State.clearFlag_nextSeq (s : State) (g : Flag) : (s.clearFlag g).nextSeq = s.nextSeq := rfl
@[simp] theorem State.clearFlag_rx (s : State) (g : Flag) : (s.clearFlag g).rx = s.rx := rfl
@[simp] theorem State.clearFlag_recCount (s : State) (g : Flag) : (s.clearFlag g).recCount = s.recCount := rfl
@[simp] theorem State.clearFlag_tecCount (s : State) (g : Flag) : (s.clearFlag g).tecCount = s.tecCount := rfl
@[simp] theorem State.clearFlag_busOff (s : State) (g : Flag) : (s.clearFlag g).busOff = s.busOff := rfl
@[simp] theorem State.clearFlag_lastErrorType (s : State) (g : Flag) : (s.clearFlag g).lastErrorType = s.lastErrorType := rfl
@[simp] theorem State.clearFlag_alc (s : State) (g : Flag) : (s.clearFlag g).alc = s.alc := rfl
@[simp] theorem State.clearFlag_ttcEn (s : State) (g : Flag) : (s.clearFlag g).ttcEn = s.ttcEn := rfl
@[simp] theorem State.clearFlag_timer (s : State) (g : Flag) : (s.clearFlag g).timer = s.timer := rfl
@[simp] theorem State.clearFlag_prescCnt (s : State) (g : Flag) : (s.clearFlag g).prescCnt = s.prescCnt := rfl
@[simp] theorem State.clearFlag_released (s : State) (g : Flag) : (s.clearFlag g).released = s.released := rfl
@[simp] theorem State.clearFlag_params (s : State) (g : Flag) : (s.clearFlag g).params = s.params := rfl
@[simp] theorem State.clearFlag_inputs (s : State) (g : Flag) : (s.clearFlag g).inputs = s.inputs := rfl
@[simp] theorem State.clearFlag_draws (s : State) (g : Flag) : (s.clearFlag g).draws = s.draws := rfl

/-! ### Setting a flag under a condition. -/

@[simp] theorem State.setFlagIf_flags (s : State) (c : Bool) (g : Flag) : (s.setFlagIf c g).flags =
    if c then s.flags ||| g.mask else s.flags := by cases c <;> rfl
@[simp] theorem State.setFlagIf_resp (s : State) (c : Bool) (g : Flag) : (s.setFlagIf c g).resp = s.resp := by cases c <;> rfl
@[simp] theorem State.setFlagIf_mode (s : State) (c : Bool) (g : Flag) : (s.setFlagIf c g).mode = s.mode := by cases c <;> rfl
@[simp] theorem State.setFlagIf_workMode (s : State) (c : Bool) (g : Flag) : (s.setFlagIf c g).workMode = s.workMode := by cases c <;> rfl
@[simp] theorem State.setFlagIf_btSlow (s : State) (c : Bool) (g : Flag) : (s.setFlagIf c g).btSlow = s.btSlow := by cases c <;> rfl
@[simp] theorem State.setFlagIf_btFast (s : State) (c : Bool) (g : Flag) : (s.setFlagIf c g).btFast = s.btFast := by cases c <;> rfl
@[simp] theorem State.setFlagIf_filt (s : State) (c : Bool) (g : Flag) : (s.setFlagIf c g).filt = s.filt := by cases c <;> rfl
@[simp] theorem State.setFlagIf_txOpt (s : State) (c : Bool) (g : Flag) : (s.setFlagIf c g).txOpt = s.txOpt := by cases c <;> rfl
@[simp] theorem State.setFlagIf_afwl (s : State) (c : Bool) (g : Flag) : (s.setFlagIf c g).afwl = s.afwl := by cases c <;> rfl
@[simp] theorem State.setFlagIf_rxPolicy (s : State) (c : Bool) (g : Flag) : (s.setFlagIf c g).rxPolicy = s.rxPolicy := by cases c <;> rfl
@[simp] theorem State.setFlagIf_ewl (s : State) (c : Bool) (g : Flag) : (s.setFlagIf c g).ewl = s.ewl := by cases c <;> rfl
@[simp] theorem State.setFlagIf_ttcCfg (s : State) (c : Bool) (g : Flag) : (s.setFlagIf c g).ttcCfg = s.ttcCfg := by cases c <;> rfl
@[simp] theorem State.setFlagIf_ie (s : State) (c : Bool) (g : Flag) : (s.setFlagIf c g).ie = s.ie := by cases c <;> rfl
@[simp] theorem State.setFlagIf_ptb (s : State) (c : Bool) (g : Flag) : (s.setFlagIf c g).ptb = s.ptb := by cases c <;> rfl
@[simp] theorem State.setFlagIf_stb (s : State) (c : Bool) (g : Flag) : (s.setFlagIf c g).stb = s.stb := by cases c <;> rfl
@[simp] theorem State.setFlagIf_fillPtr (s : State) (c : Bool) (g : Flag) : (s.setFlagIf c g).fillPtr = s.fillPtr := by cases c <;> rfl
@[simp] theorem State.setFlagIf_ptbEn (s : State) (c : Bool) (g : Flag) : (s.setFlagIf c g).ptbEn = s.ptbEn := by cases c <;> rfl
@[simp] theorem State.setFlagIf_stbEn (s : State) (c : Bool) (g : Flag) : (s.setFlagIf c g).stbEn = s.stbEn := by cases c <;> rfl
@[simp] theorem State.setFlagIf_nextSeq (s : State) (c : Bool) (g : Flag) : (s.setFlagIf c g).nextSeq = s.nextSeq := by cases c <;> rfl
@[simp] theorem State.setFlagIf_rx (s : State) (c : Bool) (g : Flag) : (s.setFlagIf c g).rx = s.rx := by cases c <;> rfl
@[simp] theorem State.setFlagIf_recCount (s : State) (c : Bool) (g : Flag) : (s.setFlagIf c g).recCount = s.recCount := by cases c <;> rfl
@[simp] theorem State.setFlagIf_tecCount (s : State) (c : Bool) (g : Flag) : (s.setFlagIf c g).tecCount = s.tecCount := by cases c <;> rfl
@[simp] theorem State.setFlagIf_busOff (s : State) (c : Bool) (g : Flag) : (s.setFlagIf c g).busOff = s.busOff := by cases c <;> rfl
@[simp] theorem State.setFlagIf_lastErrorType (s : State) (c : Bool) (g : Flag) : (s.setFlagIf c g).lastErrorType = s.lastErrorType := by cases c <;> rfl
@[simp] theorem State.setFlagIf_alc (s : State) (c : Bool) (g : Flag) : (s.setFlagIf c g).alc = s.alc := by cases c <;> rfl
@[simp] theorem State.setFlagIf_ttcEn (s : State) (c : Bool) (g : Flag) : (s.setFlagIf c g).ttcEn = s.ttcEn := by cases c <;> rfl
@[simp] theorem State.setFlagIf_timer (s : State) (c : Bool) (g : Flag) : (s.setFlagIf c g).timer = s.timer := by cases c <;> rfl
@[simp] theorem State.setFlagIf_prescCnt (s : State) (c : Bool) (g : Flag) : (s.setFlagIf c g).prescCnt = s.prescCnt := by cases c <;> rfl
@[simp] theorem State.setFlagIf_released (s : State) (c : Bool) (g : Flag) : (s.setFlagIf c g).released = s.released := by cases c <;> rfl
@[simp] theorem State.setFlagIf_params (s : State) (c : Bool) (g : Flag) : (s.setFlagIf c g).params = s.params := by cases c <;> rfl
@[simp] theorem State.setFlagIf_inputs (s : State) (c : Bool) (g : Flag) : (s.setFlagIf c g).inputs = s.inputs := by cases c <;> rfl
@[simp] theorem State.setFlagIf_draws (s : State) (c : Bool) (g : Flag) : (s.setFlagIf c g).draws = s.draws := by cases c <;> rfl

/-! ### `stbBook()` (41 R88). -/

@[simp] theorem State.stbBook_stbEn (s : State) : (s.stbBook).stbEn =
    if s.stb.all Slot.isEmpty then .off else s.stbEn := by unfold State.stbBook; split <;> rfl
@[simp] theorem State.stbBook_resp (s : State) : (s.stbBook).resp = s.resp := by unfold State.stbBook; split <;> rfl
@[simp] theorem State.stbBook_mode (s : State) : (s.stbBook).mode = s.mode := by unfold State.stbBook; split <;> rfl
@[simp] theorem State.stbBook_workMode (s : State) : (s.stbBook).workMode = s.workMode := by unfold State.stbBook; split <;> rfl
@[simp] theorem State.stbBook_btSlow (s : State) : (s.stbBook).btSlow = s.btSlow := by unfold State.stbBook; split <;> rfl
@[simp] theorem State.stbBook_btFast (s : State) : (s.stbBook).btFast = s.btFast := by unfold State.stbBook; split <;> rfl
@[simp] theorem State.stbBook_filt (s : State) : (s.stbBook).filt = s.filt := by unfold State.stbBook; split <;> rfl
@[simp] theorem State.stbBook_txOpt (s : State) : (s.stbBook).txOpt = s.txOpt := by unfold State.stbBook; split <;> rfl
@[simp] theorem State.stbBook_afwl (s : State) : (s.stbBook).afwl = s.afwl := by unfold State.stbBook; split <;> rfl
@[simp] theorem State.stbBook_rxPolicy (s : State) : (s.stbBook).rxPolicy = s.rxPolicy := by unfold State.stbBook; split <;> rfl
@[simp] theorem State.stbBook_ewl (s : State) : (s.stbBook).ewl = s.ewl := by unfold State.stbBook; split <;> rfl
@[simp] theorem State.stbBook_ttcCfg (s : State) : (s.stbBook).ttcCfg = s.ttcCfg := by unfold State.stbBook; split <;> rfl
@[simp] theorem State.stbBook_ie (s : State) : (s.stbBook).ie = s.ie := by unfold State.stbBook; split <;> rfl
@[simp] theorem State.stbBook_ptb (s : State) : (s.stbBook).ptb = s.ptb := by unfold State.stbBook; split <;> rfl
@[simp] theorem State.stbBook_stb (s : State) : (s.stbBook).stb = s.stb := by unfold State.stbBook; split <;> rfl
@[simp] theorem State.stbBook_fillPtr (s : State) : (s.stbBook).fillPtr = s.fillPtr := by unfold State.stbBook; split <;> rfl
@[simp] theorem State.stbBook_ptbEn (s : State) : (s.stbBook).ptbEn = s.ptbEn := by unfold State.stbBook; split <;> rfl
@[simp] theorem State.stbBook_nextSeq (s : State) : (s.stbBook).nextSeq = s.nextSeq := by unfold State.stbBook; split <;> rfl
@[simp] theorem State.stbBook_rx (s : State) : (s.stbBook).rx = s.rx := by unfold State.stbBook; split <;> rfl
@[simp] theorem State.stbBook_recCount (s : State) : (s.stbBook).recCount = s.recCount := by unfold State.stbBook; split <;> rfl
@[simp] theorem State.stbBook_tecCount (s : State) : (s.stbBook).tecCount = s.tecCount := by unfold State.stbBook; split <;> rfl
@[simp] theorem State.stbBook_busOff (s : State) : (s.stbBook).busOff = s.busOff := by unfold State.stbBook; split <;> rfl
@[simp] theorem State.stbBook_lastErrorType (s : State) : (s.stbBook).lastErrorType = s.lastErrorType := by unfold State.stbBook; split <;> rfl
@[simp] theorem State.stbBook_alc (s : State) : (s.stbBook).alc = s.alc := by unfold State.stbBook; split <;> rfl
@[simp] theorem State.stbBook_ttcEn (s : State) : (s.stbBook).ttcEn = s.ttcEn := by unfold State.stbBook; split <;> rfl
@[simp] theorem State.stbBook_timer (s : State) : (s.stbBook).timer = s.timer := by unfold State.stbBook; split <;> rfl
@[simp] theorem State.stbBook_prescCnt (s : State) : (s.stbBook).prescCnt = s.prescCnt := by unfold State.stbBook; split <;> rfl
@[simp] theorem State.stbBook_released (s : State) : (s.stbBook).released = s.released := by unfold State.stbBook; split <;> rfl
@[simp] theorem State.stbBook_flags (s : State) : (s.stbBook).flags = s.flags := by unfold State.stbBook; split <;> rfl
@[simp] theorem State.stbBook_params (s : State) : (s.stbBook).params = s.params := by unfold State.stbBook; split <;> rfl
@[simp] theorem State.stbBook_inputs (s : State) : (s.stbBook).inputs = s.inputs := by unfold State.stbBook; split <;> rfl
@[simp] theorem State.stbBook_draws (s : State) : (s.stbBook).draws = s.draws := by unfold State.stbBook; split <;> rfl

/-! ### `ttcSlotEmptied(k)` (44 R125). -/

@[simp] theorem State.ttcSlotEmptied_released (s : State) (k : Nat) : (s.ttcSlotEmptied k).released =
    if k = s.ttcCfg.slotPtr.toNat then false else s.released := by unfold State.ttcSlotEmptied; split <;> rfl
@[simp] theorem State.ttcSlotEmptied_resp (s : State) (k : Nat) : (s.ttcSlotEmptied k).resp = s.resp := by unfold State.ttcSlotEmptied; split <;> rfl
@[simp] theorem State.ttcSlotEmptied_mode (s : State) (k : Nat) : (s.ttcSlotEmptied k).mode = s.mode := by unfold State.ttcSlotEmptied; split <;> rfl
@[simp] theorem State.ttcSlotEmptied_workMode (s : State) (k : Nat) : (s.ttcSlotEmptied k).workMode = s.workMode := by unfold State.ttcSlotEmptied; split <;> rfl
@[simp] theorem State.ttcSlotEmptied_btSlow (s : State) (k : Nat) : (s.ttcSlotEmptied k).btSlow = s.btSlow := by unfold State.ttcSlotEmptied; split <;> rfl
@[simp] theorem State.ttcSlotEmptied_btFast (s : State) (k : Nat) : (s.ttcSlotEmptied k).btFast = s.btFast := by unfold State.ttcSlotEmptied; split <;> rfl
@[simp] theorem State.ttcSlotEmptied_filt (s : State) (k : Nat) : (s.ttcSlotEmptied k).filt = s.filt := by unfold State.ttcSlotEmptied; split <;> rfl
@[simp] theorem State.ttcSlotEmptied_txOpt (s : State) (k : Nat) : (s.ttcSlotEmptied k).txOpt = s.txOpt := by unfold State.ttcSlotEmptied; split <;> rfl
@[simp] theorem State.ttcSlotEmptied_afwl (s : State) (k : Nat) : (s.ttcSlotEmptied k).afwl = s.afwl := by unfold State.ttcSlotEmptied; split <;> rfl
@[simp] theorem State.ttcSlotEmptied_rxPolicy (s : State) (k : Nat) : (s.ttcSlotEmptied k).rxPolicy = s.rxPolicy := by unfold State.ttcSlotEmptied; split <;> rfl
@[simp] theorem State.ttcSlotEmptied_ewl (s : State) (k : Nat) : (s.ttcSlotEmptied k).ewl = s.ewl := by unfold State.ttcSlotEmptied; split <;> rfl
@[simp] theorem State.ttcSlotEmptied_ttcCfg (s : State) (k : Nat) : (s.ttcSlotEmptied k).ttcCfg = s.ttcCfg := by unfold State.ttcSlotEmptied; split <;> rfl
@[simp] theorem State.ttcSlotEmptied_ie (s : State) (k : Nat) : (s.ttcSlotEmptied k).ie = s.ie := by unfold State.ttcSlotEmptied; split <;> rfl
@[simp] theorem State.ttcSlotEmptied_ptb (s : State) (k : Nat) : (s.ttcSlotEmptied k).ptb = s.ptb := by unfold State.ttcSlotEmptied; split <;> rfl
@[simp] theorem State.ttcSlotEmptied_stb (s : State) (k : Nat) : (s.ttcSlotEmptied k).stb = s.stb := by unfold State.ttcSlotEmptied; split <;> rfl
@[simp] theorem State.ttcSlotEmptied_fillPtr (s : State) (k : Nat) : (s.ttcSlotEmptied k).fillPtr = s.fillPtr := by unfold State.ttcSlotEmptied; split <;> rfl
@[simp] theorem State.ttcSlotEmptied_ptbEn (s : State) (k : Nat) : (s.ttcSlotEmptied k).ptbEn = s.ptbEn := by unfold State.ttcSlotEmptied; split <;> rfl
@[simp] theorem State.ttcSlotEmptied_stbEn (s : State) (k : Nat) : (s.ttcSlotEmptied k).stbEn = s.stbEn := by unfold State.ttcSlotEmptied; split <;> rfl
@[simp] theorem State.ttcSlotEmptied_nextSeq (s : State) (k : Nat) : (s.ttcSlotEmptied k).nextSeq = s.nextSeq := by unfold State.ttcSlotEmptied; split <;> rfl
@[simp] theorem State.ttcSlotEmptied_rx (s : State) (k : Nat) : (s.ttcSlotEmptied k).rx = s.rx := by unfold State.ttcSlotEmptied; split <;> rfl
@[simp] theorem State.ttcSlotEmptied_recCount (s : State) (k : Nat) : (s.ttcSlotEmptied k).recCount = s.recCount := by unfold State.ttcSlotEmptied; split <;> rfl
@[simp] theorem State.ttcSlotEmptied_tecCount (s : State) (k : Nat) : (s.ttcSlotEmptied k).tecCount = s.tecCount := by unfold State.ttcSlotEmptied; split <;> rfl
@[simp] theorem State.ttcSlotEmptied_busOff (s : State) (k : Nat) : (s.ttcSlotEmptied k).busOff = s.busOff := by unfold State.ttcSlotEmptied; split <;> rfl
@[simp] theorem State.ttcSlotEmptied_lastErrorType (s : State) (k : Nat) : (s.ttcSlotEmptied k).lastErrorType = s.lastErrorType := by unfold State.ttcSlotEmptied; split <;> rfl
@[simp] theorem State.ttcSlotEmptied_alc (s : State) (k : Nat) : (s.ttcSlotEmptied k).alc = s.alc := by unfold State.ttcSlotEmptied; split <;> rfl
@[simp] theorem State.ttcSlotEmptied_ttcEn (s : State) (k : Nat) : (s.ttcSlotEmptied k).ttcEn = s.ttcEn := by unfold State.ttcSlotEmptied; split <;> rfl
@[simp] theorem State.ttcSlotEmptied_timer (s : State) (k : Nat) : (s.ttcSlotEmptied k).timer = s.timer := by unfold State.ttcSlotEmptied; split <;> rfl
@[simp] theorem State.ttcSlotEmptied_prescCnt (s : State) (k : Nat) : (s.ttcSlotEmptied k).prescCnt = s.prescCnt := by unfold State.ttcSlotEmptied; split <;> rfl
@[simp] theorem State.ttcSlotEmptied_flags (s : State) (k : Nat) : (s.ttcSlotEmptied k).flags = s.flags := by unfold State.ttcSlotEmptied; split <;> rfl
@[simp] theorem State.ttcSlotEmptied_params (s : State) (k : Nat) : (s.ttcSlotEmptied k).params = s.params := by unfold State.ttcSlotEmptied; split <;> rfl
@[simp] theorem State.ttcSlotEmptied_inputs (s : State) (k : Nat) : (s.ttcSlotEmptied k).inputs = s.inputs := by unfold State.ttcSlotEmptied; split <;> rfl
@[simp] theorem State.ttcSlotEmptied_draws (s : State) (k : Nat) : (s.ttcSlotEmptied k).draws = s.draws := by unfold State.ttcSlotEmptied; split <;> rfl

/-! ### The end of an enable (41 R91, R99). -/

@[simp] theorem State.enableEnds_ptbEn (s : State) (k : Nat) : (s.enableEnds k).ptbEn =
    if k = 0 then false else s.ptbEn := by unfold State.enableEnds; (repeat' split) <;> simp_all
@[simp] theorem State.enableEnds_stbEn (s : State) (k : Nat) : (s.enableEnds k).stbEn =
    if k ≠ 0 ∧ s.stbEn = .one then .off else s.stbEn := by unfold State.enableEnds; (repeat' split) <;> simp_all
@[simp] theorem State.enableEnds_resp (s : State) (k : Nat) : (s.enableEnds k).resp = s.resp := by unfold State.enableEnds; split <;> [rfl; split <;> rfl]
@[simp] theorem State.enableEnds_mode (s : State) (k : Nat) : (s.enableEnds k).mode = s.mode := by unfold State.enableEnds; split <;> [rfl; split <;> rfl]
@[simp] theorem State.enableEnds_workMode (s : State) (k : Nat) : (s.enableEnds k).workMode = s.workMode := by unfold State.enableEnds; split <;> [rfl; split <;> rfl]
@[simp] theorem State.enableEnds_btSlow (s : State) (k : Nat) : (s.enableEnds k).btSlow = s.btSlow := by unfold State.enableEnds; split <;> [rfl; split <;> rfl]
@[simp] theorem State.enableEnds_btFast (s : State) (k : Nat) : (s.enableEnds k).btFast = s.btFast := by unfold State.enableEnds; split <;> [rfl; split <;> rfl]
@[simp] theorem State.enableEnds_filt (s : State) (k : Nat) : (s.enableEnds k).filt = s.filt := by unfold State.enableEnds; split <;> [rfl; split <;> rfl]
@[simp] theorem State.enableEnds_txOpt (s : State) (k : Nat) : (s.enableEnds k).txOpt = s.txOpt := by unfold State.enableEnds; split <;> [rfl; split <;> rfl]
@[simp] theorem State.enableEnds_afwl (s : State) (k : Nat) : (s.enableEnds k).afwl = s.afwl := by unfold State.enableEnds; split <;> [rfl; split <;> rfl]
@[simp] theorem State.enableEnds_rxPolicy (s : State) (k : Nat) : (s.enableEnds k).rxPolicy = s.rxPolicy := by unfold State.enableEnds; split <;> [rfl; split <;> rfl]
@[simp] theorem State.enableEnds_ewl (s : State) (k : Nat) : (s.enableEnds k).ewl = s.ewl := by unfold State.enableEnds; split <;> [rfl; split <;> rfl]
@[simp] theorem State.enableEnds_ttcCfg (s : State) (k : Nat) : (s.enableEnds k).ttcCfg = s.ttcCfg := by unfold State.enableEnds; split <;> [rfl; split <;> rfl]
@[simp] theorem State.enableEnds_ie (s : State) (k : Nat) : (s.enableEnds k).ie = s.ie := by unfold State.enableEnds; split <;> [rfl; split <;> rfl]
@[simp] theorem State.enableEnds_ptb (s : State) (k : Nat) : (s.enableEnds k).ptb = s.ptb := by unfold State.enableEnds; split <;> [rfl; split <;> rfl]
@[simp] theorem State.enableEnds_stb (s : State) (k : Nat) : (s.enableEnds k).stb = s.stb := by unfold State.enableEnds; split <;> [rfl; split <;> rfl]
@[simp] theorem State.enableEnds_fillPtr (s : State) (k : Nat) : (s.enableEnds k).fillPtr = s.fillPtr := by unfold State.enableEnds; split <;> [rfl; split <;> rfl]
@[simp] theorem State.enableEnds_nextSeq (s : State) (k : Nat) : (s.enableEnds k).nextSeq = s.nextSeq := by unfold State.enableEnds; split <;> [rfl; split <;> rfl]
@[simp] theorem State.enableEnds_rx (s : State) (k : Nat) : (s.enableEnds k).rx = s.rx := by unfold State.enableEnds; split <;> [rfl; split <;> rfl]
@[simp] theorem State.enableEnds_recCount (s : State) (k : Nat) : (s.enableEnds k).recCount = s.recCount := by unfold State.enableEnds; split <;> [rfl; split <;> rfl]
@[simp] theorem State.enableEnds_tecCount (s : State) (k : Nat) : (s.enableEnds k).tecCount = s.tecCount := by unfold State.enableEnds; split <;> [rfl; split <;> rfl]
@[simp] theorem State.enableEnds_busOff (s : State) (k : Nat) : (s.enableEnds k).busOff = s.busOff := by unfold State.enableEnds; split <;> [rfl; split <;> rfl]
@[simp] theorem State.enableEnds_lastErrorType (s : State) (k : Nat) : (s.enableEnds k).lastErrorType = s.lastErrorType := by unfold State.enableEnds; split <;> [rfl; split <;> rfl]
@[simp] theorem State.enableEnds_alc (s : State) (k : Nat) : (s.enableEnds k).alc = s.alc := by unfold State.enableEnds; split <;> [rfl; split <;> rfl]
@[simp] theorem State.enableEnds_ttcEn (s : State) (k : Nat) : (s.enableEnds k).ttcEn = s.ttcEn := by unfold State.enableEnds; split <;> [rfl; split <;> rfl]
@[simp] theorem State.enableEnds_timer (s : State) (k : Nat) : (s.enableEnds k).timer = s.timer := by unfold State.enableEnds; split <;> [rfl; split <;> rfl]
@[simp] theorem State.enableEnds_prescCnt (s : State) (k : Nat) : (s.enableEnds k).prescCnt = s.prescCnt := by unfold State.enableEnds; split <;> [rfl; split <;> rfl]
@[simp] theorem State.enableEnds_released (s : State) (k : Nat) : (s.enableEnds k).released = s.released := by unfold State.enableEnds; split <;> [rfl; split <;> rfl]
@[simp] theorem State.enableEnds_flags (s : State) (k : Nat) : (s.enableEnds k).flags = s.flags := by unfold State.enableEnds; split <;> [rfl; split <;> rfl]
@[simp] theorem State.enableEnds_params (s : State) (k : Nat) : (s.enableEnds k).params = s.params := by unfold State.enableEnds; split <;> [rfl; split <;> rfl]
@[simp] theorem State.enableEnds_inputs (s : State) (k : Nat) : (s.enableEnds k).inputs = s.inputs := by unfold State.enableEnds; split <;> [rfl; split <;> rfl]
@[simp] theorem State.enableEnds_draws (s : State) (k : Nat) : (s.enableEnds k).draws = s.draws := by unfold State.enableEnds; split <;> [rfl; split <;> rfl]

/-! ### The end of the PTB enable (41 R91). -/

@[simp] theorem State.ptbEnds_ptbEn (s : State) (k : Nat) : (s.ptbEnds k).ptbEn =
    if k = 0 then false else s.ptbEn := by unfold State.ptbEnds; split <;> rfl
@[simp] theorem State.ptbEnds_resp (s : State) (k : Nat) : (s.ptbEnds k).resp = s.resp := by unfold State.ptbEnds; split <;> rfl
@[simp] theorem State.ptbEnds_mode (s : State) (k : Nat) : (s.ptbEnds k).mode = s.mode := by unfold State.ptbEnds; split <;> rfl
@[simp] theorem State.ptbEnds_workMode (s : State) (k : Nat) : (s.ptbEnds k).workMode = s.workMode := by unfold State.ptbEnds; split <;> rfl
@[simp] theorem State.ptbEnds_btSlow (s : State) (k : Nat) : (s.ptbEnds k).btSlow = s.btSlow := by unfold State.ptbEnds; split <;> rfl
@[simp] theorem State.ptbEnds_btFast (s : State) (k : Nat) : (s.ptbEnds k).btFast = s.btFast := by unfold State.ptbEnds; split <;> rfl
@[simp] theorem State.ptbEnds_filt (s : State) (k : Nat) : (s.ptbEnds k).filt = s.filt := by unfold State.ptbEnds; split <;> rfl
@[simp] theorem State.ptbEnds_txOpt (s : State) (k : Nat) : (s.ptbEnds k).txOpt = s.txOpt := by unfold State.ptbEnds; split <;> rfl
@[simp] theorem State.ptbEnds_afwl (s : State) (k : Nat) : (s.ptbEnds k).afwl = s.afwl := by unfold State.ptbEnds; split <;> rfl
@[simp] theorem State.ptbEnds_rxPolicy (s : State) (k : Nat) : (s.ptbEnds k).rxPolicy = s.rxPolicy := by unfold State.ptbEnds; split <;> rfl
@[simp] theorem State.ptbEnds_ewl (s : State) (k : Nat) : (s.ptbEnds k).ewl = s.ewl := by unfold State.ptbEnds; split <;> rfl
@[simp] theorem State.ptbEnds_ttcCfg (s : State) (k : Nat) : (s.ptbEnds k).ttcCfg = s.ttcCfg := by unfold State.ptbEnds; split <;> rfl
@[simp] theorem State.ptbEnds_ie (s : State) (k : Nat) : (s.ptbEnds k).ie = s.ie := by unfold State.ptbEnds; split <;> rfl
@[simp] theorem State.ptbEnds_ptb (s : State) (k : Nat) : (s.ptbEnds k).ptb = s.ptb := by unfold State.ptbEnds; split <;> rfl
@[simp] theorem State.ptbEnds_stb (s : State) (k : Nat) : (s.ptbEnds k).stb = s.stb := by unfold State.ptbEnds; split <;> rfl
@[simp] theorem State.ptbEnds_fillPtr (s : State) (k : Nat) : (s.ptbEnds k).fillPtr = s.fillPtr := by unfold State.ptbEnds; split <;> rfl
@[simp] theorem State.ptbEnds_stbEn (s : State) (k : Nat) : (s.ptbEnds k).stbEn = s.stbEn := by unfold State.ptbEnds; split <;> rfl
@[simp] theorem State.ptbEnds_nextSeq (s : State) (k : Nat) : (s.ptbEnds k).nextSeq = s.nextSeq := by unfold State.ptbEnds; split <;> rfl
@[simp] theorem State.ptbEnds_rx (s : State) (k : Nat) : (s.ptbEnds k).rx = s.rx := by unfold State.ptbEnds; split <;> rfl
@[simp] theorem State.ptbEnds_recCount (s : State) (k : Nat) : (s.ptbEnds k).recCount = s.recCount := by unfold State.ptbEnds; split <;> rfl
@[simp] theorem State.ptbEnds_tecCount (s : State) (k : Nat) : (s.ptbEnds k).tecCount = s.tecCount := by unfold State.ptbEnds; split <;> rfl
@[simp] theorem State.ptbEnds_busOff (s : State) (k : Nat) : (s.ptbEnds k).busOff = s.busOff := by unfold State.ptbEnds; split <;> rfl
@[simp] theorem State.ptbEnds_lastErrorType (s : State) (k : Nat) : (s.ptbEnds k).lastErrorType = s.lastErrorType := by unfold State.ptbEnds; split <;> rfl
@[simp] theorem State.ptbEnds_alc (s : State) (k : Nat) : (s.ptbEnds k).alc = s.alc := by unfold State.ptbEnds; split <;> rfl
@[simp] theorem State.ptbEnds_ttcEn (s : State) (k : Nat) : (s.ptbEnds k).ttcEn = s.ttcEn := by unfold State.ptbEnds; split <;> rfl
@[simp] theorem State.ptbEnds_timer (s : State) (k : Nat) : (s.ptbEnds k).timer = s.timer := by unfold State.ptbEnds; split <;> rfl
@[simp] theorem State.ptbEnds_prescCnt (s : State) (k : Nat) : (s.ptbEnds k).prescCnt = s.prescCnt := by unfold State.ptbEnds; split <;> rfl
@[simp] theorem State.ptbEnds_released (s : State) (k : Nat) : (s.ptbEnds k).released = s.released := by unfold State.ptbEnds; split <;> rfl
@[simp] theorem State.ptbEnds_flags (s : State) (k : Nat) : (s.ptbEnds k).flags = s.flags := by unfold State.ptbEnds; split <;> rfl
@[simp] theorem State.ptbEnds_params (s : State) (k : Nat) : (s.ptbEnds k).params = s.params := by unfold State.ptbEnds; split <;> rfl
@[simp] theorem State.ptbEnds_inputs (s : State) (k : Nat) : (s.ptbEnds k).inputs = s.inputs := by unfold State.ptbEnds; split <;> rfl
@[simp] theorem State.ptbEnds_draws (s : State) (k : Nat) : (s.ptbEnds k).draws = s.draws := by unfold State.ptbEnds; split <;> rfl

/-! ### Changing one slot. -/

@[simp] theorem State.modifySlot_ptb (s : State) (k : Nat) (f : Slot → Slot) : (s.modifySlot k f).ptb =
    if k = 0 then f s.ptb else s.ptb := by cases k <;> rfl
@[simp] theorem State.modifySlot_stb (s : State) (k : Nat) (f : Slot → Slot) : (s.modifySlot k f).stb =
    if k = 0 then s.stb else s.stb.modify (k - 1) f := by cases k <;> rfl
@[simp] theorem State.modifySlot_resp (s : State) (k : Nat) (f : Slot → Slot) : (s.modifySlot k f).resp = s.resp := by cases k <;> rfl
@[simp] theorem State.modifySlot_mode (s : State) (k : Nat) (f : Slot → Slot) : (s.modifySlot k f).mode = s.mode := by cases k <;> rfl
@[simp] theorem State.modifySlot_workMode (s : State) (k : Nat) (f : Slot → Slot) : (s.modifySlot k f).workMode = s.workMode := by cases k <;> rfl
@[simp] theorem State.modifySlot_btSlow (s : State) (k : Nat) (f : Slot → Slot) : (s.modifySlot k f).btSlow = s.btSlow := by cases k <;> rfl
@[simp] theorem State.modifySlot_btFast (s : State) (k : Nat) (f : Slot → Slot) : (s.modifySlot k f).btFast = s.btFast := by cases k <;> rfl
@[simp] theorem State.modifySlot_filt (s : State) (k : Nat) (f : Slot → Slot) : (s.modifySlot k f).filt = s.filt := by cases k <;> rfl
@[simp] theorem State.modifySlot_txOpt (s : State) (k : Nat) (f : Slot → Slot) : (s.modifySlot k f).txOpt = s.txOpt := by cases k <;> rfl
@[simp] theorem State.modifySlot_afwl (s : State) (k : Nat) (f : Slot → Slot) : (s.modifySlot k f).afwl = s.afwl := by cases k <;> rfl
@[simp] theorem State.modifySlot_rxPolicy (s : State) (k : Nat) (f : Slot → Slot) : (s.modifySlot k f).rxPolicy = s.rxPolicy := by cases k <;> rfl
@[simp] theorem State.modifySlot_ewl (s : State) (k : Nat) (f : Slot → Slot) : (s.modifySlot k f).ewl = s.ewl := by cases k <;> rfl
@[simp] theorem State.modifySlot_ttcCfg (s : State) (k : Nat) (f : Slot → Slot) : (s.modifySlot k f).ttcCfg = s.ttcCfg := by cases k <;> rfl
@[simp] theorem State.modifySlot_ie (s : State) (k : Nat) (f : Slot → Slot) : (s.modifySlot k f).ie = s.ie := by cases k <;> rfl
@[simp] theorem State.modifySlot_fillPtr (s : State) (k : Nat) (f : Slot → Slot) : (s.modifySlot k f).fillPtr = s.fillPtr := by cases k <;> rfl
@[simp] theorem State.modifySlot_ptbEn (s : State) (k : Nat) (f : Slot → Slot) : (s.modifySlot k f).ptbEn = s.ptbEn := by cases k <;> rfl
@[simp] theorem State.modifySlot_stbEn (s : State) (k : Nat) (f : Slot → Slot) : (s.modifySlot k f).stbEn = s.stbEn := by cases k <;> rfl
@[simp] theorem State.modifySlot_nextSeq (s : State) (k : Nat) (f : Slot → Slot) : (s.modifySlot k f).nextSeq = s.nextSeq := by cases k <;> rfl
@[simp] theorem State.modifySlot_rx (s : State) (k : Nat) (f : Slot → Slot) : (s.modifySlot k f).rx = s.rx := by cases k <;> rfl
@[simp] theorem State.modifySlot_recCount (s : State) (k : Nat) (f : Slot → Slot) : (s.modifySlot k f).recCount = s.recCount := by cases k <;> rfl
@[simp] theorem State.modifySlot_tecCount (s : State) (k : Nat) (f : Slot → Slot) : (s.modifySlot k f).tecCount = s.tecCount := by cases k <;> rfl
@[simp] theorem State.modifySlot_busOff (s : State) (k : Nat) (f : Slot → Slot) : (s.modifySlot k f).busOff = s.busOff := by cases k <;> rfl
@[simp] theorem State.modifySlot_lastErrorType (s : State) (k : Nat) (f : Slot → Slot) : (s.modifySlot k f).lastErrorType = s.lastErrorType := by cases k <;> rfl
@[simp] theorem State.modifySlot_alc (s : State) (k : Nat) (f : Slot → Slot) : (s.modifySlot k f).alc = s.alc := by cases k <;> rfl
@[simp] theorem State.modifySlot_ttcEn (s : State) (k : Nat) (f : Slot → Slot) : (s.modifySlot k f).ttcEn = s.ttcEn := by cases k <;> rfl
@[simp] theorem State.modifySlot_timer (s : State) (k : Nat) (f : Slot → Slot) : (s.modifySlot k f).timer = s.timer := by cases k <;> rfl
@[simp] theorem State.modifySlot_prescCnt (s : State) (k : Nat) (f : Slot → Slot) : (s.modifySlot k f).prescCnt = s.prescCnt := by cases k <;> rfl
@[simp] theorem State.modifySlot_released (s : State) (k : Nat) (f : Slot → Slot) : (s.modifySlot k f).released = s.released := by cases k <;> rfl
@[simp] theorem State.modifySlot_flags (s : State) (k : Nat) (f : Slot → Slot) : (s.modifySlot k f).flags = s.flags := by cases k <;> rfl
@[simp] theorem State.modifySlot_params (s : State) (k : Nat) (f : Slot → Slot) : (s.modifySlot k f).params = s.params := by cases k <;> rfl
@[simp] theorem State.modifySlot_inputs (s : State) (k : Nat) (f : Slot → Slot) : (s.modifySlot k f).inputs = s.inputs := by cases k <;> rfl
@[simp] theorem State.modifySlot_draws (s : State) (k : Nat) (f : Slot → Slot) : (s.modifySlot k f).draws = s.draws := by cases k <;> rfl

/-! ### Counting a draw (log 3). -/

@[simp] theorem State.countDraw_draws (s : State) : (s.countDraw).draws =
    if s.busy then s.draws + 1 else s.draws := by unfold State.countDraw; split <;> rfl
@[simp] theorem State.countDraw_resp (s : State) : (s.countDraw).resp = s.resp := by unfold State.countDraw; split <;> rfl
@[simp] theorem State.countDraw_mode (s : State) : (s.countDraw).mode = s.mode := by unfold State.countDraw; split <;> rfl
@[simp] theorem State.countDraw_workMode (s : State) : (s.countDraw).workMode = s.workMode := by unfold State.countDraw; split <;> rfl
@[simp] theorem State.countDraw_btSlow (s : State) : (s.countDraw).btSlow = s.btSlow := by unfold State.countDraw; split <;> rfl
@[simp] theorem State.countDraw_btFast (s : State) : (s.countDraw).btFast = s.btFast := by unfold State.countDraw; split <;> rfl
@[simp] theorem State.countDraw_filt (s : State) : (s.countDraw).filt = s.filt := by unfold State.countDraw; split <;> rfl
@[simp] theorem State.countDraw_txOpt (s : State) : (s.countDraw).txOpt = s.txOpt := by unfold State.countDraw; split <;> rfl
@[simp] theorem State.countDraw_afwl (s : State) : (s.countDraw).afwl = s.afwl := by unfold State.countDraw; split <;> rfl
@[simp] theorem State.countDraw_rxPolicy (s : State) : (s.countDraw).rxPolicy = s.rxPolicy := by unfold State.countDraw; split <;> rfl
@[simp] theorem State.countDraw_ewl (s : State) : (s.countDraw).ewl = s.ewl := by unfold State.countDraw; split <;> rfl
@[simp] theorem State.countDraw_ttcCfg (s : State) : (s.countDraw).ttcCfg = s.ttcCfg := by unfold State.countDraw; split <;> rfl
@[simp] theorem State.countDraw_ie (s : State) : (s.countDraw).ie = s.ie := by unfold State.countDraw; split <;> rfl
@[simp] theorem State.countDraw_ptb (s : State) : (s.countDraw).ptb = s.ptb := by unfold State.countDraw; split <;> rfl
@[simp] theorem State.countDraw_stb (s : State) : (s.countDraw).stb = s.stb := by unfold State.countDraw; split <;> rfl
@[simp] theorem State.countDraw_fillPtr (s : State) : (s.countDraw).fillPtr = s.fillPtr := by unfold State.countDraw; split <;> rfl
@[simp] theorem State.countDraw_ptbEn (s : State) : (s.countDraw).ptbEn = s.ptbEn := by unfold State.countDraw; split <;> rfl
@[simp] theorem State.countDraw_stbEn (s : State) : (s.countDraw).stbEn = s.stbEn := by unfold State.countDraw; split <;> rfl
@[simp] theorem State.countDraw_nextSeq (s : State) : (s.countDraw).nextSeq = s.nextSeq := by unfold State.countDraw; split <;> rfl
@[simp] theorem State.countDraw_rx (s : State) : (s.countDraw).rx = s.rx := by unfold State.countDraw; split <;> rfl
@[simp] theorem State.countDraw_recCount (s : State) : (s.countDraw).recCount = s.recCount := by unfold State.countDraw; split <;> rfl
@[simp] theorem State.countDraw_tecCount (s : State) : (s.countDraw).tecCount = s.tecCount := by unfold State.countDraw; split <;> rfl
@[simp] theorem State.countDraw_busOff (s : State) : (s.countDraw).busOff = s.busOff := by unfold State.countDraw; split <;> rfl
@[simp] theorem State.countDraw_lastErrorType (s : State) : (s.countDraw).lastErrorType = s.lastErrorType := by unfold State.countDraw; split <;> rfl
@[simp] theorem State.countDraw_alc (s : State) : (s.countDraw).alc = s.alc := by unfold State.countDraw; split <;> rfl
@[simp] theorem State.countDraw_ttcEn (s : State) : (s.countDraw).ttcEn = s.ttcEn := by unfold State.countDraw; split <;> rfl
@[simp] theorem State.countDraw_timer (s : State) : (s.countDraw).timer = s.timer := by unfold State.countDraw; split <;> rfl
@[simp] theorem State.countDraw_prescCnt (s : State) : (s.countDraw).prescCnt = s.prescCnt := by unfold State.countDraw; split <;> rfl
@[simp] theorem State.countDraw_released (s : State) : (s.countDraw).released = s.released := by unfold State.countDraw; split <;> rfl
@[simp] theorem State.countDraw_flags (s : State) : (s.countDraw).flags = s.flags := by unfold State.countDraw; split <;> rfl
@[simp] theorem State.countDraw_params (s : State) : (s.countDraw).params = s.params := by unfold State.countDraw; split <;> rfl
@[simp] theorem State.countDraw_inputs (s : State) : (s.countDraw).inputs = s.inputs := by unfold State.countDraw; split <;> rfl

/-! ### The counters of one bus event (43 R114). -/

@[simp] theorem State.countError_recCount (s : State) (ev : Config.EvKind) : (s.countError ev).recCount =
    clampCount s.recCount (Config.Delta.dRec (errDeltaOf s.params.errDelta ev)) := rfl
@[simp] theorem State.countError_tecCount (s : State) (ev : Config.EvKind) : (s.countError ev).tecCount =
    clampCount s.tecCount (Config.Delta.dTec (errDeltaOf s.params.errDelta ev)) := rfl
@[simp] theorem State.countError_resp (s : State) (ev : Config.EvKind) : (s.countError ev).resp = s.resp := rfl
@[simp] theorem State.countError_mode (s : State) (ev : Config.EvKind) : (s.countError ev).mode = s.mode := rfl
@[simp] theorem State.countError_workMode (s : State) (ev : Config.EvKind) : (s.countError ev).workMode = s.workMode := rfl
@[simp] theorem State.countError_btSlow (s : State) (ev : Config.EvKind) : (s.countError ev).btSlow = s.btSlow := rfl
@[simp] theorem State.countError_btFast (s : State) (ev : Config.EvKind) : (s.countError ev).btFast = s.btFast := rfl
@[simp] theorem State.countError_filt (s : State) (ev : Config.EvKind) : (s.countError ev).filt = s.filt := rfl
@[simp] theorem State.countError_txOpt (s : State) (ev : Config.EvKind) : (s.countError ev).txOpt = s.txOpt := rfl
@[simp] theorem State.countError_afwl (s : State) (ev : Config.EvKind) : (s.countError ev).afwl = s.afwl := rfl
@[simp] theorem State.countError_rxPolicy (s : State) (ev : Config.EvKind) : (s.countError ev).rxPolicy = s.rxPolicy := rfl
@[simp] theorem State.countError_ewl (s : State) (ev : Config.EvKind) : (s.countError ev).ewl = s.ewl := rfl
@[simp] theorem State.countError_ttcCfg (s : State) (ev : Config.EvKind) : (s.countError ev).ttcCfg = s.ttcCfg := rfl
@[simp] theorem State.countError_ie (s : State) (ev : Config.EvKind) : (s.countError ev).ie = s.ie := rfl
@[simp] theorem State.countError_ptb (s : State) (ev : Config.EvKind) : (s.countError ev).ptb = s.ptb := rfl
@[simp] theorem State.countError_stb (s : State) (ev : Config.EvKind) : (s.countError ev).stb = s.stb := rfl
@[simp] theorem State.countError_fillPtr (s : State) (ev : Config.EvKind) : (s.countError ev).fillPtr = s.fillPtr := rfl
@[simp] theorem State.countError_ptbEn (s : State) (ev : Config.EvKind) : (s.countError ev).ptbEn = s.ptbEn := rfl
@[simp] theorem State.countError_stbEn (s : State) (ev : Config.EvKind) : (s.countError ev).stbEn = s.stbEn := rfl
@[simp] theorem State.countError_nextSeq (s : State) (ev : Config.EvKind) : (s.countError ev).nextSeq = s.nextSeq := rfl
@[simp] theorem State.countError_rx (s : State) (ev : Config.EvKind) : (s.countError ev).rx = s.rx := rfl
@[simp] theorem State.countError_busOff (s : State) (ev : Config.EvKind) : (s.countError ev).busOff = s.busOff := rfl
@[simp] theorem State.countError_lastErrorType (s : State) (ev : Config.EvKind) : (s.countError ev).lastErrorType = s.lastErrorType := rfl
@[simp] theorem State.countError_alc (s : State) (ev : Config.EvKind) : (s.countError ev).alc = s.alc := rfl
@[simp] theorem State.countError_ttcEn (s : State) (ev : Config.EvKind) : (s.countError ev).ttcEn = s.ttcEn := rfl
@[simp] theorem State.countError_timer (s : State) (ev : Config.EvKind) : (s.countError ev).timer = s.timer := rfl
@[simp] theorem State.countError_prescCnt (s : State) (ev : Config.EvKind) : (s.countError ev).prescCnt = s.prescCnt := rfl
@[simp] theorem State.countError_released (s : State) (ev : Config.EvKind) : (s.countError ev).released = s.released := rfl
@[simp] theorem State.countError_flags (s : State) (ev : Config.EvKind) : (s.countError ev).flags = s.flags := rfl
@[simp] theorem State.countError_params (s : State) (ev : Config.EvKind) : (s.countError ev).params = s.params := rfl
@[simp] theorem State.countError_inputs (s : State) (ev : Config.EvKind) : (s.countError ev).inputs = s.inputs := rfl
@[simp] theorem State.countError_draws (s : State) (ev : Config.EvKind) : (s.countError ev).draws = s.draws := rfl

/-! ### `ttcRefReceived()` (44 R132). -/

@[simp] theorem State.ttcRefReceived_timer (s : State) : (s.ttcRefReceived).timer =
    0 := rfl
@[simp] theorem State.ttcRefReceived_prescCnt (s : State) : (s.ttcRefReceived).prescCnt =
    0 := rfl
@[simp] theorem State.ttcRefReceived_resp (s : State) : (s.ttcRefReceived).resp = s.resp := rfl
@[simp] theorem State.ttcRefReceived_mode (s : State) : (s.ttcRefReceived).mode = s.mode := rfl
@[simp] theorem State.ttcRefReceived_workMode (s : State) : (s.ttcRefReceived).workMode = s.workMode := rfl
@[simp] theorem State.ttcRefReceived_btSlow (s : State) : (s.ttcRefReceived).btSlow = s.btSlow := rfl
@[simp] theorem State.ttcRefReceived_btFast (s : State) : (s.ttcRefReceived).btFast = s.btFast := rfl
@[simp] theorem State.ttcRefReceived_filt (s : State) : (s.ttcRefReceived).filt = s.filt := rfl
@[simp] theorem State.ttcRefReceived_txOpt (s : State) : (s.ttcRefReceived).txOpt = s.txOpt := rfl
@[simp] theorem State.ttcRefReceived_afwl (s : State) : (s.ttcRefReceived).afwl = s.afwl := rfl
@[simp] theorem State.ttcRefReceived_rxPolicy (s : State) : (s.ttcRefReceived).rxPolicy = s.rxPolicy := rfl
@[simp] theorem State.ttcRefReceived_ewl (s : State) : (s.ttcRefReceived).ewl = s.ewl := rfl
@[simp] theorem State.ttcRefReceived_ttcCfg (s : State) : (s.ttcRefReceived).ttcCfg = s.ttcCfg := rfl
@[simp] theorem State.ttcRefReceived_ie (s : State) : (s.ttcRefReceived).ie = s.ie := rfl
@[simp] theorem State.ttcRefReceived_ptb (s : State) : (s.ttcRefReceived).ptb = s.ptb := rfl
@[simp] theorem State.ttcRefReceived_stb (s : State) : (s.ttcRefReceived).stb = s.stb := rfl
@[simp] theorem State.ttcRefReceived_fillPtr (s : State) : (s.ttcRefReceived).fillPtr = s.fillPtr := rfl
@[simp] theorem State.ttcRefReceived_ptbEn (s : State) : (s.ttcRefReceived).ptbEn = s.ptbEn := rfl
@[simp] theorem State.ttcRefReceived_stbEn (s : State) : (s.ttcRefReceived).stbEn = s.stbEn := rfl
@[simp] theorem State.ttcRefReceived_nextSeq (s : State) : (s.ttcRefReceived).nextSeq = s.nextSeq := rfl
@[simp] theorem State.ttcRefReceived_rx (s : State) : (s.ttcRefReceived).rx = s.rx := rfl
@[simp] theorem State.ttcRefReceived_recCount (s : State) : (s.ttcRefReceived).recCount = s.recCount := rfl
@[simp] theorem State.ttcRefReceived_tecCount (s : State) : (s.ttcRefReceived).tecCount = s.tecCount := rfl
@[simp] theorem State.ttcRefReceived_busOff (s : State) : (s.ttcRefReceived).busOff = s.busOff := rfl
@[simp] theorem State.ttcRefReceived_lastErrorType (s : State) : (s.ttcRefReceived).lastErrorType = s.lastErrorType := rfl
@[simp] theorem State.ttcRefReceived_alc (s : State) : (s.ttcRefReceived).alc = s.alc := rfl
@[simp] theorem State.ttcRefReceived_ttcEn (s : State) : (s.ttcRefReceived).ttcEn = s.ttcEn := rfl
@[simp] theorem State.ttcRefReceived_released (s : State) : (s.ttcRefReceived).released = s.released := rfl
@[simp] theorem State.ttcRefReceived_flags (s : State) : (s.ttcRefReceived).flags = s.flags := rfl
@[simp] theorem State.ttcRefReceived_params (s : State) : (s.ttcRefReceived).params = s.params := rfl
@[simp] theorem State.ttcRefReceived_inputs (s : State) : (s.ttcRefReceived).inputs = s.inputs := rfl
@[simp] theorem State.ttcRefReceived_draws (s : State) : (s.ttcRefReceived).draws = s.draws := rfl

/-! ### `ttcTrigger()` (44 R131). -/

@[simp] theorem State.ttcTrigger_released (s : State) : (s.ttcTrigger).released =
    match s.ttcCfg.trigType with
      | .immediate | .time => s.released
      | .singleShotTransmit | .transmitStart => true
      | .transmitStop => false := by
  unfold State.ttcTrigger; split <;> simp_all
@[simp] theorem State.ttcTrigger_resp (s : State) : (s.ttcTrigger).resp = s.resp := by unfold State.ttcTrigger; split <;> rfl
@[simp] theorem State.ttcTrigger_mode (s : State) : (s.ttcTrigger).mode = s.mode := by unfold State.ttcTrigger; split <;> rfl
@[simp] theorem State.ttcTrigger_workMode (s : State) : (s.ttcTrigger).workMode = s.workMode := by unfold State.ttcTrigger; split <;> rfl
@[simp] theorem State.ttcTrigger_btSlow (s : State) : (s.ttcTrigger).btSlow = s.btSlow := by unfold State.ttcTrigger; split <;> rfl
@[simp] theorem State.ttcTrigger_btFast (s : State) : (s.ttcTrigger).btFast = s.btFast := by unfold State.ttcTrigger; split <;> rfl
@[simp] theorem State.ttcTrigger_filt (s : State) : (s.ttcTrigger).filt = s.filt := by unfold State.ttcTrigger; split <;> rfl
@[simp] theorem State.ttcTrigger_txOpt (s : State) : (s.ttcTrigger).txOpt = s.txOpt := by unfold State.ttcTrigger; split <;> rfl
@[simp] theorem State.ttcTrigger_afwl (s : State) : (s.ttcTrigger).afwl = s.afwl := by unfold State.ttcTrigger; split <;> rfl
@[simp] theorem State.ttcTrigger_rxPolicy (s : State) : (s.ttcTrigger).rxPolicy = s.rxPolicy := by unfold State.ttcTrigger; split <;> rfl
@[simp] theorem State.ttcTrigger_ewl (s : State) : (s.ttcTrigger).ewl = s.ewl := by unfold State.ttcTrigger; split <;> rfl
@[simp] theorem State.ttcTrigger_ttcCfg (s : State) : (s.ttcTrigger).ttcCfg = s.ttcCfg := by unfold State.ttcTrigger; split <;> rfl
@[simp] theorem State.ttcTrigger_ie (s : State) : (s.ttcTrigger).ie = s.ie := by unfold State.ttcTrigger; split <;> rfl
@[simp] theorem State.ttcTrigger_ptb (s : State) : (s.ttcTrigger).ptb = s.ptb := by unfold State.ttcTrigger; split <;> rfl
@[simp] theorem State.ttcTrigger_stb (s : State) : (s.ttcTrigger).stb = s.stb := by unfold State.ttcTrigger; split <;> rfl
@[simp] theorem State.ttcTrigger_fillPtr (s : State) : (s.ttcTrigger).fillPtr = s.fillPtr := by unfold State.ttcTrigger; split <;> rfl
@[simp] theorem State.ttcTrigger_ptbEn (s : State) : (s.ttcTrigger).ptbEn = s.ptbEn := by unfold State.ttcTrigger; split <;> rfl
@[simp] theorem State.ttcTrigger_stbEn (s : State) : (s.ttcTrigger).stbEn = s.stbEn := by unfold State.ttcTrigger; split <;> rfl
@[simp] theorem State.ttcTrigger_nextSeq (s : State) : (s.ttcTrigger).nextSeq = s.nextSeq := by unfold State.ttcTrigger; split <;> rfl
@[simp] theorem State.ttcTrigger_rx (s : State) : (s.ttcTrigger).rx = s.rx := by unfold State.ttcTrigger; split <;> rfl
@[simp] theorem State.ttcTrigger_recCount (s : State) : (s.ttcTrigger).recCount = s.recCount := by unfold State.ttcTrigger; split <;> rfl
@[simp] theorem State.ttcTrigger_tecCount (s : State) : (s.ttcTrigger).tecCount = s.tecCount := by unfold State.ttcTrigger; split <;> rfl
@[simp] theorem State.ttcTrigger_busOff (s : State) : (s.ttcTrigger).busOff = s.busOff := by unfold State.ttcTrigger; split <;> rfl
@[simp] theorem State.ttcTrigger_lastErrorType (s : State) : (s.ttcTrigger).lastErrorType = s.lastErrorType := by unfold State.ttcTrigger; split <;> rfl
@[simp] theorem State.ttcTrigger_alc (s : State) : (s.ttcTrigger).alc = s.alc := by unfold State.ttcTrigger; split <;> rfl
@[simp] theorem State.ttcTrigger_ttcEn (s : State) : (s.ttcTrigger).ttcEn = s.ttcEn := by unfold State.ttcTrigger; split <;> rfl
@[simp] theorem State.ttcTrigger_timer (s : State) : (s.ttcTrigger).timer = s.timer := by unfold State.ttcTrigger; split <;> rfl
@[simp] theorem State.ttcTrigger_prescCnt (s : State) : (s.ttcTrigger).prescCnt = s.prescCnt := by unfold State.ttcTrigger; split <;> rfl
@[simp] theorem State.ttcTrigger_flags (s : State) : (s.ttcTrigger).flags = s.flags := by unfold State.ttcTrigger; split <;> rfl
@[simp] theorem State.ttcTrigger_params (s : State) : (s.ttcTrigger).params = s.params := by unfold State.ttcTrigger; split <;> rfl
@[simp] theorem State.ttcTrigger_inputs (s : State) : (s.ttcTrigger).inputs = s.inputs := by unfold State.ttcTrigger; split <;> rfl
@[simp] theorem State.ttcTrigger_draws (s : State) : (s.ttcTrigger).draws = s.draws := by unfold State.ttcTrigger; split <;> rfl

/-! ### The close of the window (44 R130). -/

@[simp] theorem State.ttcWindowCloses_released (s : State) : (s.ttcWindowCloses).released =
    if s.ttcCfg.trigType = .singleShotTransmit ∧ s.released = true ∧ s.timer = s.ttcCfg.trigTime + s.ttcCfg.tew + 1
      then false else s.released := by unfold State.ttcWindowCloses; split <;> rfl
@[simp] theorem State.ttcWindowCloses_resp (s : State) : (s.ttcWindowCloses).resp = s.resp := by unfold State.ttcWindowCloses; split <;> rfl
@[simp] theorem State.ttcWindowCloses_mode (s : State) : (s.ttcWindowCloses).mode = s.mode := by unfold State.ttcWindowCloses; split <;> rfl
@[simp] theorem State.ttcWindowCloses_workMode (s : State) : (s.ttcWindowCloses).workMode = s.workMode := by unfold State.ttcWindowCloses; split <;> rfl
@[simp] theorem State.ttcWindowCloses_btSlow (s : State) : (s.ttcWindowCloses).btSlow = s.btSlow := by unfold State.ttcWindowCloses; split <;> rfl
@[simp] theorem State.ttcWindowCloses_btFast (s : State) : (s.ttcWindowCloses).btFast = s.btFast := by unfold State.ttcWindowCloses; split <;> rfl
@[simp] theorem State.ttcWindowCloses_filt (s : State) : (s.ttcWindowCloses).filt = s.filt := by unfold State.ttcWindowCloses; split <;> rfl
@[simp] theorem State.ttcWindowCloses_txOpt (s : State) : (s.ttcWindowCloses).txOpt = s.txOpt := by unfold State.ttcWindowCloses; split <;> rfl
@[simp] theorem State.ttcWindowCloses_afwl (s : State) : (s.ttcWindowCloses).afwl = s.afwl := by unfold State.ttcWindowCloses; split <;> rfl
@[simp] theorem State.ttcWindowCloses_rxPolicy (s : State) : (s.ttcWindowCloses).rxPolicy = s.rxPolicy := by unfold State.ttcWindowCloses; split <;> rfl
@[simp] theorem State.ttcWindowCloses_ewl (s : State) : (s.ttcWindowCloses).ewl = s.ewl := by unfold State.ttcWindowCloses; split <;> rfl
@[simp] theorem State.ttcWindowCloses_ttcCfg (s : State) : (s.ttcWindowCloses).ttcCfg = s.ttcCfg := by unfold State.ttcWindowCloses; split <;> rfl
@[simp] theorem State.ttcWindowCloses_ie (s : State) : (s.ttcWindowCloses).ie = s.ie := by unfold State.ttcWindowCloses; split <;> rfl
@[simp] theorem State.ttcWindowCloses_ptb (s : State) : (s.ttcWindowCloses).ptb = s.ptb := by unfold State.ttcWindowCloses; split <;> rfl
@[simp] theorem State.ttcWindowCloses_stb (s : State) : (s.ttcWindowCloses).stb = s.stb := by unfold State.ttcWindowCloses; split <;> rfl
@[simp] theorem State.ttcWindowCloses_fillPtr (s : State) : (s.ttcWindowCloses).fillPtr = s.fillPtr := by unfold State.ttcWindowCloses; split <;> rfl
@[simp] theorem State.ttcWindowCloses_ptbEn (s : State) : (s.ttcWindowCloses).ptbEn = s.ptbEn := by unfold State.ttcWindowCloses; split <;> rfl
@[simp] theorem State.ttcWindowCloses_stbEn (s : State) : (s.ttcWindowCloses).stbEn = s.stbEn := by unfold State.ttcWindowCloses; split <;> rfl
@[simp] theorem State.ttcWindowCloses_nextSeq (s : State) : (s.ttcWindowCloses).nextSeq = s.nextSeq := by unfold State.ttcWindowCloses; split <;> rfl
@[simp] theorem State.ttcWindowCloses_rx (s : State) : (s.ttcWindowCloses).rx = s.rx := by unfold State.ttcWindowCloses; split <;> rfl
@[simp] theorem State.ttcWindowCloses_recCount (s : State) : (s.ttcWindowCloses).recCount = s.recCount := by unfold State.ttcWindowCloses; split <;> rfl
@[simp] theorem State.ttcWindowCloses_tecCount (s : State) : (s.ttcWindowCloses).tecCount = s.tecCount := by unfold State.ttcWindowCloses; split <;> rfl
@[simp] theorem State.ttcWindowCloses_busOff (s : State) : (s.ttcWindowCloses).busOff = s.busOff := by unfold State.ttcWindowCloses; split <;> rfl
@[simp] theorem State.ttcWindowCloses_lastErrorType (s : State) : (s.ttcWindowCloses).lastErrorType = s.lastErrorType := by unfold State.ttcWindowCloses; split <;> rfl
@[simp] theorem State.ttcWindowCloses_alc (s : State) : (s.ttcWindowCloses).alc = s.alc := by unfold State.ttcWindowCloses; split <;> rfl
@[simp] theorem State.ttcWindowCloses_ttcEn (s : State) : (s.ttcWindowCloses).ttcEn = s.ttcEn := by unfold State.ttcWindowCloses; split <;> rfl
@[simp] theorem State.ttcWindowCloses_timer (s : State) : (s.ttcWindowCloses).timer = s.timer := by unfold State.ttcWindowCloses; split <;> rfl
@[simp] theorem State.ttcWindowCloses_prescCnt (s : State) : (s.ttcWindowCloses).prescCnt = s.prescCnt := by unfold State.ttcWindowCloses; split <;> rfl
@[simp] theorem State.ttcWindowCloses_flags (s : State) : (s.ttcWindowCloses).flags = s.flags := by unfold State.ttcWindowCloses; split <;> rfl
@[simp] theorem State.ttcWindowCloses_params (s : State) : (s.ttcWindowCloses).params = s.params := by unfold State.ttcWindowCloses; split <;> rfl
@[simp] theorem State.ttcWindowCloses_inputs (s : State) : (s.ttcWindowCloses).inputs = s.inputs := by unfold State.ttcWindowCloses; split <;> rfl
@[simp] theorem State.ttcWindowCloses_draws (s : State) : (s.ttcWindowCloses).draws = s.draws := by unfold State.ttcWindowCloses; split <;> rfl

end Sys2Proof.Machine
end

