-- ==== Sys2Proof/Laws/Frames.lean ====
section
/-! SUPPORT. The frames of the shared operations: one lemma per field an operation never changes. -/

namespace Sys2Proof.Machine

/-! ### The end of an attempt (41 R91): the slots, the enables, the release and the flags are all it can change. -/

@[simp] theorem State.failAttempt_resp (s : State) (k : Nat) (c : FailCause) (d : AbortDraw) : (s.failAttempt k c d).resp = s.resp := by
  unfold State.failAttempt; repeat' split
  all_goals simp
@[simp] theorem State.failAttempt_mode (s : State) (k : Nat) (c : FailCause) (d : AbortDraw) : (s.failAttempt k c d).mode = s.mode := by
  unfold State.failAttempt; repeat' split
  all_goals simp
@[simp] theorem State.failAttempt_workMode (s : State) (k : Nat) (c : FailCause) (d : AbortDraw) : (s.failAttempt k c d).workMode = s.workMode := by
  unfold State.failAttempt; repeat' split
  all_goals simp
@[simp] theorem State.failAttempt_btSlow (s : State) (k : Nat) (c : FailCause) (d : AbortDraw) : (s.failAttempt k c d).btSlow = s.btSlow := by
  unfold State.failAttempt; repeat' split
  all_goals simp
@[simp] theorem State.failAttempt_btFast (s : State) (k : Nat) (c : FailCause) (d : AbortDraw) : (s.failAttempt k c d).btFast = s.btFast := by
  unfold State.failAttempt; repeat' split
  all_goals simp
@[simp] theorem State.failAttempt_filt (s : State) (k : Nat) (c : FailCause) (d : AbortDraw) : (s.failAttempt k c d).filt = s.filt := by
  unfold State.failAttempt; repeat' split
  all_goals simp
@[simp] theorem State.failAttempt_txOpt (s : State) (k : Nat) (c : FailCause) (d : AbortDraw) : (s.failAttempt k c d).txOpt = s.txOpt := by
  unfold State.failAttempt; repeat' split
  all_goals simp
@[simp] theorem State.failAttempt_afwl (s : State) (k : Nat) (c : FailCause) (d : AbortDraw) : (s.failAttempt k c d).afwl = s.afwl := by
  unfold State.failAttempt; repeat' split
  all_goals simp
@[simp] theorem State.failAttempt_rxPolicy (s : State) (k : Nat) (c : FailCause) (d : AbortDraw) : (s.failAttempt k c d).rxPolicy = s.rxPolicy := by
  unfold State.failAttempt; repeat' split
  all_goals simp
@[simp] theorem State.failAttempt_ewl (s : State) (k : Nat) (c : FailCause) (d : AbortDraw) : (s.failAttempt k c d).ewl = s.ewl := by
  unfold State.failAttempt; repeat' split
  all_goals simp
@[simp] theorem State.failAttempt_ttcCfg (s : State) (k : Nat) (c : FailCause) (d : AbortDraw) : (s.failAttempt k c d).ttcCfg = s.ttcCfg := by
  unfold State.failAttempt; repeat' split
  all_goals simp
@[simp] theorem State.failAttempt_ie (s : State) (k : Nat) (c : FailCause) (d : AbortDraw) : (s.failAttempt k c d).ie = s.ie := by
  unfold State.failAttempt; repeat' split
  all_goals simp
@[simp] theorem State.failAttempt_fillPtr (s : State) (k : Nat) (c : FailCause) (d : AbortDraw) : (s.failAttempt k c d).fillPtr = s.fillPtr := by
  unfold State.failAttempt; repeat' split
  all_goals simp
@[simp] theorem State.failAttempt_nextSeq (s : State) (k : Nat) (c : FailCause) (d : AbortDraw) : (s.failAttempt k c d).nextSeq = s.nextSeq := by
  unfold State.failAttempt; repeat' split
  all_goals simp
@[simp] theorem State.failAttempt_rx (s : State) (k : Nat) (c : FailCause) (d : AbortDraw) : (s.failAttempt k c d).rx = s.rx := by
  unfold State.failAttempt; repeat' split
  all_goals simp
@[simp] theorem State.failAttempt_recCount (s : State) (k : Nat) (c : FailCause) (d : AbortDraw) : (s.failAttempt k c d).recCount = s.recCount := by
  unfold State.failAttempt; repeat' split
  all_goals simp
@[simp] theorem State.failAttempt_tecCount (s : State) (k : Nat) (c : FailCause) (d : AbortDraw) : (s.failAttempt k c d).tecCount = s.tecCount := by
  unfold State.failAttempt; repeat' split
  all_goals simp
@[simp] theorem State.failAttempt_busOff (s : State) (k : Nat) (c : FailCause) (d : AbortDraw) : (s.failAttempt k c d).busOff = s.busOff := by
  unfold State.failAttempt; repeat' split
  all_goals simp
@[simp] theorem State.failAttempt_lastErrorType (s : State) (k : Nat) (c : FailCause) (d : AbortDraw) : (s.failAttempt k c d).lastErrorType = s.lastErrorType := by
  unfold State.failAttempt; repeat' split
  all_goals simp
@[simp] theorem State.failAttempt_alc (s : State) (k : Nat) (c : FailCause) (d : AbortDraw) : (s.failAttempt k c d).alc = s.alc := by
  unfold State.failAttempt; repeat' split
  all_goals simp
@[simp] theorem State.failAttempt_ttcEn (s : State) (k : Nat) (c : FailCause) (d : AbortDraw) : (s.failAttempt k c d).ttcEn = s.ttcEn := by
  unfold State.failAttempt; repeat' split
  all_goals simp
@[simp] theorem State.failAttempt_timer (s : State) (k : Nat) (c : FailCause) (d : AbortDraw) : (s.failAttempt k c d).timer = s.timer := by
  unfold State.failAttempt; repeat' split
  all_goals simp
@[simp] theorem State.failAttempt_prescCnt (s : State) (k : Nat) (c : FailCause) (d : AbortDraw) : (s.failAttempt k c d).prescCnt = s.prescCnt := by
  unfold State.failAttempt; repeat' split
  all_goals simp
@[simp] theorem State.failAttempt_params (s : State) (k : Nat) (c : FailCause) (d : AbortDraw) : (s.failAttempt k c d).params = s.params := by
  unfold State.failAttempt; repeat' split
  all_goals simp
@[simp] theorem State.failAttempt_inputs (s : State) (k : Nat) (c : FailCause) (d : AbortDraw) : (s.failAttempt k c d).inputs = s.inputs := by
  unfold State.failAttempt; repeat' split
  all_goals simp
@[simp] theorem State.failAttempt_draws (s : State) (k : Nat) (c : FailCause) (d : AbortDraw) : (s.failAttempt k c d).draws = s.draws := by
  unfold State.failAttempt; repeat' split
  all_goals simp

/-! ### The end of the attempt in progress, if any. -/

@[simp] theorem State.endAttempt_resp (s : State) (c : FailCause) (d : AbortDraw) : (s.endAttempt c d).resp = s.resp := by
  unfold State.endAttempt; split <;> simp
@[simp] theorem State.endAttempt_mode (s : State) (c : FailCause) (d : AbortDraw) : (s.endAttempt c d).mode = s.mode := by
  unfold State.endAttempt; split <;> simp
@[simp] theorem State.endAttempt_workMode (s : State) (c : FailCause) (d : AbortDraw) : (s.endAttempt c d).workMode = s.workMode := by
  unfold State.endAttempt; split <;> simp
@[simp] theorem State.endAttempt_btSlow (s : State) (c : FailCause) (d : AbortDraw) : (s.endAttempt c d).btSlow = s.btSlow := by
  unfold State.endAttempt; split <;> simp
@[simp] theorem State.endAttempt_btFast (s : State) (c : FailCause) (d : AbortDraw) : (s.endAttempt c d).btFast = s.btFast := by
  unfold State.endAttempt; split <;> simp
@[simp] theorem State.endAttempt_filt (s : State) (c : FailCause) (d : AbortDraw) : (s.endAttempt c d).filt = s.filt := by
  unfold State.endAttempt; split <;> simp
@[simp] theorem State.endAttempt_txOpt (s : State) (c : FailCause) (d : AbortDraw) : (s.endAttempt c d).txOpt = s.txOpt := by
  unfold State.endAttempt; split <;> simp
@[simp] theorem State.endAttempt_afwl (s : State) (c : FailCause) (d : AbortDraw) : (s.endAttempt c d).afwl = s.afwl := by
  unfold State.endAttempt; split <;> simp
@[simp] theorem State.endAttempt_rxPolicy (s : State) (c : FailCause) (d : AbortDraw) : (s.endAttempt c d).rxPolicy = s.rxPolicy := by
  unfold State.endAttempt; split <;> simp
@[simp] theorem State.endAttempt_ewl (s : State) (c : FailCause) (d : AbortDraw) : (s.endAttempt c d).ewl = s.ewl := by
  unfold State.endAttempt; split <;> simp
@[simp] theorem State.endAttempt_ttcCfg (s : State) (c : FailCause) (d : AbortDraw) : (s.endAttempt c d).ttcCfg = s.ttcCfg := by
  unfold State.endAttempt; split <;> simp
@[simp] theorem State.endAttempt_ie (s : State) (c : FailCause) (d : AbortDraw) : (s.endAttempt c d).ie = s.ie := by
  unfold State.endAttempt; split <;> simp
@[simp] theorem State.endAttempt_fillPtr (s : State) (c : FailCause) (d : AbortDraw) : (s.endAttempt c d).fillPtr = s.fillPtr := by
  unfold State.endAttempt; split <;> simp
@[simp] theorem State.endAttempt_nextSeq (s : State) (c : FailCause) (d : AbortDraw) : (s.endAttempt c d).nextSeq = s.nextSeq := by
  unfold State.endAttempt; split <;> simp
@[simp] theorem State.endAttempt_rx (s : State) (c : FailCause) (d : AbortDraw) : (s.endAttempt c d).rx = s.rx := by
  unfold State.endAttempt; split <;> simp
@[simp] theorem State.endAttempt_recCount (s : State) (c : FailCause) (d : AbortDraw) : (s.endAttempt c d).recCount = s.recCount := by
  unfold State.endAttempt; split <;> simp
@[simp] theorem State.endAttempt_tecCount (s : State) (c : FailCause) (d : AbortDraw) : (s.endAttempt c d).tecCount = s.tecCount := by
  unfold State.endAttempt; split <;> simp
@[simp] theorem State.endAttempt_busOff (s : State) (c : FailCause) (d : AbortDraw) : (s.endAttempt c d).busOff = s.busOff := by
  unfold State.endAttempt; split <;> simp
@[simp] theorem State.endAttempt_lastErrorType (s : State) (c : FailCause) (d : AbortDraw) : (s.endAttempt c d).lastErrorType = s.lastErrorType := by
  unfold State.endAttempt; split <;> simp
@[simp] theorem State.endAttempt_alc (s : State) (c : FailCause) (d : AbortDraw) : (s.endAttempt c d).alc = s.alc := by
  unfold State.endAttempt; split <;> simp
@[simp] theorem State.endAttempt_ttcEn (s : State) (c : FailCause) (d : AbortDraw) : (s.endAttempt c d).ttcEn = s.ttcEn := by
  unfold State.endAttempt; split <;> simp
@[simp] theorem State.endAttempt_timer (s : State) (c : FailCause) (d : AbortDraw) : (s.endAttempt c d).timer = s.timer := by
  unfold State.endAttempt; split <;> simp
@[simp] theorem State.endAttempt_prescCnt (s : State) (c : FailCause) (d : AbortDraw) : (s.endAttempt c d).prescCnt = s.prescCnt := by
  unfold State.endAttempt; split <;> simp
@[simp] theorem State.endAttempt_params (s : State) (c : FailCause) (d : AbortDraw) : (s.endAttempt c d).params = s.params := by
  unfold State.endAttempt; split <;> simp
@[simp] theorem State.endAttempt_inputs (s : State) (c : FailCause) (d : AbortDraw) : (s.endAttempt c d).inputs = s.inputs := by
  unfold State.endAttempt; split <;> simp
@[simp] theorem State.endAttempt_draws (s : State) (c : FailCause) (d : AbortDraw) : (s.endAttempt c d).draws = s.draws := by
  unfold State.endAttempt; split <;> simp

/-! ### `enterBusOff()` (43 R116). -/

@[simp] theorem State.enterBusOff_resp (s : State) (d : AbortDraw) : (s.enterBusOff d).resp = s.resp := by
  simp [State.enterBusOff]
@[simp] theorem State.enterBusOff_mode (s : State) (d : AbortDraw) : (s.enterBusOff d).mode = s.mode := by
  simp [State.enterBusOff]
@[simp] theorem State.enterBusOff_workMode (s : State) (d : AbortDraw) : (s.enterBusOff d).workMode = s.workMode := by
  simp [State.enterBusOff]
@[simp] theorem State.enterBusOff_btSlow (s : State) (d : AbortDraw) : (s.enterBusOff d).btSlow = s.btSlow := by
  simp [State.enterBusOff]
@[simp] theorem State.enterBusOff_btFast (s : State) (d : AbortDraw) : (s.enterBusOff d).btFast = s.btFast := by
  simp [State.enterBusOff]
@[simp] theorem State.enterBusOff_filt (s : State) (d : AbortDraw) : (s.enterBusOff d).filt = s.filt := by
  simp [State.enterBusOff]
@[simp] theorem State.enterBusOff_txOpt (s : State) (d : AbortDraw) : (s.enterBusOff d).txOpt = s.txOpt := by
  simp [State.enterBusOff]
@[simp] theorem State.enterBusOff_afwl (s : State) (d : AbortDraw) : (s.enterBusOff d).afwl = s.afwl := by
  simp [State.enterBusOff]
@[simp] theorem State.enterBusOff_rxPolicy (s : State) (d : AbortDraw) : (s.enterBusOff d).rxPolicy = s.rxPolicy := by
  simp [State.enterBusOff]
@[simp] theorem State.enterBusOff_ewl (s : State) (d : AbortDraw) : (s.enterBusOff d).ewl = s.ewl := by
  simp [State.enterBusOff]
@[simp] theorem State.enterBusOff_ttcCfg (s : State) (d : AbortDraw) : (s.enterBusOff d).ttcCfg = s.ttcCfg := by
  simp [State.enterBusOff]
@[simp] theorem State.enterBusOff_ie (s : State) (d : AbortDraw) : (s.enterBusOff d).ie = s.ie := by
  simp [State.enterBusOff]
@[simp] theorem State.enterBusOff_fillPtr (s : State) (d : AbortDraw) : (s.enterBusOff d).fillPtr = s.fillPtr := by
  simp [State.enterBusOff]
@[simp] theorem State.enterBusOff_nextSeq (s : State) (d : AbortDraw) : (s.enterBusOff d).nextSeq = s.nextSeq := by
  simp [State.enterBusOff]
@[simp] theorem State.enterBusOff_rx (s : State) (d : AbortDraw) : (s.enterBusOff d).rx = s.rx := by
  simp [State.enterBusOff]
@[simp] theorem State.enterBusOff_recCount (s : State) (d : AbortDraw) : (s.enterBusOff d).recCount = s.recCount := by
  simp [State.enterBusOff]
@[simp] theorem State.enterBusOff_tecCount (s : State) (d : AbortDraw) : (s.enterBusOff d).tecCount = s.tecCount := by
  simp [State.enterBusOff]
@[simp] theorem State.enterBusOff_lastErrorType (s : State) (d : AbortDraw) : (s.enterBusOff d).lastErrorType = s.lastErrorType := by
  simp [State.enterBusOff]
@[simp] theorem State.enterBusOff_alc (s : State) (d : AbortDraw) : (s.enterBusOff d).alc = s.alc := by
  simp [State.enterBusOff]
@[simp] theorem State.enterBusOff_ttcEn (s : State) (d : AbortDraw) : (s.enterBusOff d).ttcEn = s.ttcEn := by
  simp [State.enterBusOff]
@[simp] theorem State.enterBusOff_timer (s : State) (d : AbortDraw) : (s.enterBusOff d).timer = s.timer := by
  simp [State.enterBusOff]
@[simp] theorem State.enterBusOff_prescCnt (s : State) (d : AbortDraw) : (s.enterBusOff d).prescCnt = s.prescCnt := by
  simp [State.enterBusOff]
@[simp] theorem State.enterBusOff_params (s : State) (d : AbortDraw) : (s.enterBusOff d).params = s.params := by
  simp [State.enterBusOff]
@[simp] theorem State.enterBusOff_inputs (s : State) (d : AbortDraw) : (s.enterBusOff d).inputs = s.inputs := by
  simp [State.enterBusOff]
@[simp] theorem State.enterBusOff_draws (s : State) (d : AbortDraw) : (s.enterBusOff d).draws = s.draws := by
  simp [State.enterBusOff]

/-! ### `errUpdate(ev)` (43 R114): beside the counters and the flags only what bus-off changes. -/

@[simp] theorem State.errUpdate_resp (s : State) (ev : Config.EvKind) (d : AbortDraw) : (s.errUpdate ev d).resp = s.resp := by
  unfold State.errUpdate; simp only; split <;> simp
@[simp] theorem State.errUpdate_mode (s : State) (ev : Config.EvKind) (d : AbortDraw) : (s.errUpdate ev d).mode = s.mode := by
  unfold State.errUpdate; simp only; split <;> simp
@[simp] theorem State.errUpdate_workMode (s : State) (ev : Config.EvKind) (d : AbortDraw) : (s.errUpdate ev d).workMode = s.workMode := by
  unfold State.errUpdate; simp only; split <;> simp
@[simp] theorem State.errUpdate_btSlow (s : State) (ev : Config.EvKind) (d : AbortDraw) : (s.errUpdate ev d).btSlow = s.btSlow := by
  unfold State.errUpdate; simp only; split <;> simp
@[simp] theorem State.errUpdate_btFast (s : State) (ev : Config.EvKind) (d : AbortDraw) : (s.errUpdate ev d).btFast = s.btFast := by
  unfold State.errUpdate; simp only; split <;> simp
@[simp] theorem State.errUpdate_filt (s : State) (ev : Config.EvKind) (d : AbortDraw) : (s.errUpdate ev d).filt = s.filt := by
  unfold State.errUpdate; simp only; split <;> simp
@[simp] theorem State.errUpdate_txOpt (s : State) (ev : Config.EvKind) (d : AbortDraw) : (s.errUpdate ev d).txOpt = s.txOpt := by
  unfold State.errUpdate; simp only; split <;> simp
@[simp] theorem State.errUpdate_afwl (s : State) (ev : Config.EvKind) (d : AbortDraw) : (s.errUpdate ev d).afwl = s.afwl := by
  unfold State.errUpdate; simp only; split <;> simp
@[simp] theorem State.errUpdate_rxPolicy (s : State) (ev : Config.EvKind) (d : AbortDraw) : (s.errUpdate ev d).rxPolicy = s.rxPolicy := by
  unfold State.errUpdate; simp only; split <;> simp
@[simp] theorem State.errUpdate_ewl (s : State) (ev : Config.EvKind) (d : AbortDraw) : (s.errUpdate ev d).ewl = s.ewl := by
  unfold State.errUpdate; simp only; split <;> simp
@[simp] theorem State.errUpdate_ttcCfg (s : State) (ev : Config.EvKind) (d : AbortDraw) : (s.errUpdate ev d).ttcCfg = s.ttcCfg := by
  unfold State.errUpdate; simp only; split <;> simp
@[simp] theorem State.errUpdate_ie (s : State) (ev : Config.EvKind) (d : AbortDraw) : (s.errUpdate ev d).ie = s.ie := by
  unfold State.errUpdate; simp only; split <;> simp
@[simp] theorem State.errUpdate_fillPtr (s : State) (ev : Config.EvKind) (d : AbortDraw) : (s.errUpdate ev d).fillPtr = s.fillPtr := by
  unfold State.errUpdate; simp only; split <;> simp
@[simp] theorem State.errUpdate_nextSeq (s : State) (ev : Config.EvKind) (d : AbortDraw) : (s.errUpdate ev d).nextSeq = s.nextSeq := by
  unfold State.errUpdate; simp only; split <;> simp
@[simp] theorem State.errUpdate_rx (s : State) (ev : Config.EvKind) (d : AbortDraw) : (s.errUpdate ev d).rx = s.rx := by
  unfold State.errUpdate; simp only; split <;> simp
@[simp] theorem State.errUpdate_lastErrorType (s : State) (ev : Config.EvKind) (d : AbortDraw) : (s.errUpdate ev d).lastErrorType = s.lastErrorType := by
  unfold State.errUpdate; simp only; split <;> simp
@[simp] theorem State.errUpdate_alc (s : State) (ev : Config.EvKind) (d : AbortDraw) : (s.errUpdate ev d).alc = s.alc := by
  unfold State.errUpdate; simp only; split <;> simp
@[simp] theorem State.errUpdate_ttcEn (s : State) (ev : Config.EvKind) (d : AbortDraw) : (s.errUpdate ev d).ttcEn = s.ttcEn := by
  unfold State.errUpdate; simp only; split <;> simp
@[simp] theorem State.errUpdate_timer (s : State) (ev : Config.EvKind) (d : AbortDraw) : (s.errUpdate ev d).timer = s.timer := by
  unfold State.errUpdate; simp only; split <;> simp
@[simp] theorem State.errUpdate_prescCnt (s : State) (ev : Config.EvKind) (d : AbortDraw) : (s.errUpdate ev d).prescCnt = s.prescCnt := by
  unfold State.errUpdate; simp only; split <;> simp
@[simp] theorem State.errUpdate_params (s : State) (ev : Config.EvKind) (d : AbortDraw) : (s.errUpdate ev d).params = s.params := by
  unfold State.errUpdate; simp only; split <;> simp
@[simp] theorem State.errUpdate_inputs (s : State) (ev : Config.EvKind) (d : AbortDraw) : (s.errUpdate ev d).inputs = s.inputs := by
  unfold State.errUpdate; simp only; split <;> simp
@[simp] theorem State.errUpdate_draws (s : State) (ev : Config.EvKind) (d : AbortDraw) : (s.errUpdate ev d).draws = s.draws := by
  unfold State.errUpdate; simp only; split <;> simp

/-! ### The end of a frame by success (41 R99). -/

@[simp] theorem State.txCompleted_resp (s : State) (k : Nat) : (s.txCompleted k).resp = s.resp := by
  simp [State.txCompleted]
@[simp] theorem State.txCompleted_mode (s : State) (k : Nat) : (s.txCompleted k).mode = s.mode := by
  simp [State.txCompleted]
@[simp] theorem State.txCompleted_workMode (s : State) (k : Nat) : (s.txCompleted k).workMode = s.workMode := by
  simp [State.txCompleted]
@[simp] theorem State.txCompleted_btSlow (s : State) (k : Nat) : (s.txCompleted k).btSlow = s.btSlow := by
  simp [State.txCompleted]
@[simp] theorem State.txCompleted_btFast (s : State) (k : Nat) : (s.txCompleted k).btFast = s.btFast := by
  simp [State.txCompleted]
@[simp] theorem State.txCompleted_filt (s : State) (k : Nat) : (s.txCompleted k).filt = s.filt := by
  simp [State.txCompleted]
@[simp] theorem State.txCompleted_txOpt (s : State) (k : Nat) : (s.txCompleted k).txOpt = s.txOpt := by
  simp [State.txCompleted]
@[simp] theorem State.txCompleted_afwl (s : State) (k : Nat) : (s.txCompleted k).afwl = s.afwl := by
  simp [State.txCompleted]
@[simp] theorem State.txCompleted_rxPolicy (s : State) (k : Nat) : (s.txCompleted k).rxPolicy = s.rxPolicy := by
  simp [State.txCompleted]
@[simp] theorem State.txCompleted_ewl (s : State) (k : Nat) : (s.txCompleted k).ewl = s.ewl := by
  simp [State.txCompleted]
@[simp] theorem State.txCompleted_ttcCfg (s : State) (k : Nat) : (s.txCompleted k).ttcCfg = s.ttcCfg := by
  simp [State.txCompleted]
@[simp] theorem State.txCompleted_ie (s : State) (k : Nat) : (s.txCompleted k).ie = s.ie := by
  simp [State.txCompleted]
@[simp] theorem State.txCompleted_fillPtr (s : State) (k : Nat) : (s.txCompleted k).fillPtr = s.fillPtr := by
  simp [State.txCompleted]
@[simp] theorem State.txCompleted_nextSeq (s : State) (k : Nat) : (s.txCompleted k).nextSeq = s.nextSeq := by
  simp [State.txCompleted]
@[simp] theorem State.txCompleted_rx (s : State) (k : Nat) : (s.txCompleted k).rx = s.rx := by
  simp [State.txCompleted]
@[simp] theorem State.txCompleted_recCount (s : State) (k : Nat) : (s.txCompleted k).recCount = s.recCount := by
  simp [State.txCompleted]
@[simp] theorem State.txCompleted_tecCount (s : State) (k : Nat) : (s.txCompleted k).tecCount = s.tecCount := by
  simp [State.txCompleted]
@[simp] theorem State.txCompleted_busOff (s : State) (k : Nat) : (s.txCompleted k).busOff = s.busOff := by
  simp [State.txCompleted]
@[simp] theorem State.txCompleted_lastErrorType (s : State) (k : Nat) : (s.txCompleted k).lastErrorType = s.lastErrorType := by
  simp [State.txCompleted]
@[simp] theorem State.txCompleted_alc (s : State) (k : Nat) : (s.txCompleted k).alc = s.alc := by
  simp [State.txCompleted]
@[simp] theorem State.txCompleted_ttcEn (s : State) (k : Nat) : (s.txCompleted k).ttcEn = s.ttcEn := by
  simp [State.txCompleted]
@[simp] theorem State.txCompleted_timer (s : State) (k : Nat) : (s.txCompleted k).timer = s.timer := by
  simp [State.txCompleted]
@[simp] theorem State.txCompleted_prescCnt (s : State) (k : Nat) : (s.txCompleted k).prescCnt = s.prescCnt := by
  simp [State.txCompleted]
@[simp] theorem State.txCompleted_params (s : State) (k : Nat) : (s.txCompleted k).params = s.params := by
  simp [State.txCompleted]
@[simp] theorem State.txCompleted_inputs (s : State) (k : Nat) : (s.txCompleted k).inputs = s.inputs := by
  simp [State.txCompleted]
@[simp] theorem State.txCompleted_draws (s : State) (k : Nat) : (s.txCompleted k).draws = s.draws := by
  simp [State.txCompleted]

/-! ### An accepted frame at the FIFO (42 R110). -/

@[simp] theorem State.storeFrame_resp (s : State) (e : RxFrame) : (s.storeFrame e).resp = s.resp := by
  unfold State.storeFrame; repeat' split
  all_goals simp
@[simp] theorem State.storeFrame_mode (s : State) (e : RxFrame) : (s.storeFrame e).mode = s.mode := by
  unfold State.storeFrame; repeat' split
  all_goals simp
@[simp] theorem State.storeFrame_workMode (s : State) (e : RxFrame) : (s.storeFrame e).workMode = s.workMode := by
  unfold State.storeFrame; repeat' split
  all_goals simp
@[simp] theorem State.storeFrame_btSlow (s : State) (e : RxFrame) : (s.storeFrame e).btSlow = s.btSlow := by
  unfold State.storeFrame; repeat' split
  all_goals simp
@[simp] theorem State.storeFrame_btFast (s : State) (e : RxFrame) : (s.storeFrame e).btFast = s.btFast := by
  unfold State.storeFrame; repeat' split
  all_goals simp
@[simp] theorem State.storeFrame_filt (s : State) (e : RxFrame) : (s.storeFrame e).filt = s.filt := by
  unfold State.storeFrame; repeat' split
  all_goals simp
@[simp] theorem State.storeFrame_txOpt (s : State) (e : RxFrame) : (s.storeFrame e).txOpt = s.txOpt := by
  unfold State.storeFrame; repeat' split
  all_goals simp
@[simp] theorem State.storeFrame_afwl (s : State) (e : RxFrame) : (s.storeFrame e).afwl = s.afwl := by
  unfold State.storeFrame; repeat' split
  all_goals simp
@[simp] theorem State.storeFrame_rxPolicy (s : State) (e : RxFrame) : (s.storeFrame e).rxPolicy = s.rxPolicy := by
  unfold State.storeFrame; repeat' split
  all_goals simp
@[simp] theorem State.storeFrame_ewl (s : State) (e : RxFrame) : (s.storeFrame e).ewl = s.ewl := by
  unfold State.storeFrame; repeat' split
  all_goals simp
@[simp] theorem State.storeFrame_ttcCfg (s : State) (e : RxFrame) : (s.storeFrame e).ttcCfg = s.ttcCfg := by
  unfold State.storeFrame; repeat' split
  all_goals simp
@[simp] theorem State.storeFrame_ie (s : State) (e : RxFrame) : (s.storeFrame e).ie = s.ie := by
  unfold State.storeFrame; repeat' split
  all_goals simp
@[simp] theorem State.storeFrame_ptb (s : State) (e : RxFrame) : (s.storeFrame e).ptb = s.ptb := by
  unfold State.storeFrame; repeat' split
  all_goals simp
@[simp] theorem State.storeFrame_stb (s : State) (e : RxFrame) : (s.storeFrame e).stb = s.stb := by
  unfold State.storeFrame; repeat' split
  all_goals simp
@[simp] theorem State.storeFrame_fillPtr (s : State) (e : RxFrame) : (s.storeFrame e).fillPtr = s.fillPtr := by
  unfold State.storeFrame; repeat' split
  all_goals simp
@[simp] theorem State.storeFrame_ptbEn (s : State) (e : RxFrame) : (s.storeFrame e).ptbEn = s.ptbEn := by
  unfold State.storeFrame; repeat' split
  all_goals simp
@[simp] theorem State.storeFrame_stbEn (s : State) (e : RxFrame) : (s.storeFrame e).stbEn = s.stbEn := by
  unfold State.storeFrame; repeat' split
  all_goals simp
@[simp] theorem State.storeFrame_nextSeq (s : State) (e : RxFrame) : (s.storeFrame e).nextSeq = s.nextSeq := by
  unfold State.storeFrame; repeat' split
  all_goals simp
@[simp] theorem State.storeFrame_recCount (s : State) (e : RxFrame) : (s.storeFrame e).recCount = s.recCount := by
  unfold State.storeFrame; repeat' split
  all_goals simp
@[simp] theorem State.storeFrame_tecCount (s : State) (e : RxFrame) : (s.storeFrame e).tecCount = s.tecCount := by
  unfold State.storeFrame; repeat' split
  all_goals simp
@[simp] theorem State.storeFrame_busOff (s : State) (e : RxFrame) : (s.storeFrame e).busOff = s.busOff := by
  unfold State.storeFrame; repeat' split
  all_goals simp
@[simp] theorem State.storeFrame_lastErrorType (s : State) (e : RxFrame) : (s.storeFrame e).lastErrorType = s.lastErrorType := by
  unfold State.storeFrame; repeat' split
  all_goals simp
@[simp] theorem State.storeFrame_alc (s : State) (e : RxFrame) : (s.storeFrame e).alc = s.alc := by
  unfold State.storeFrame; repeat' split
  all_goals simp
@[simp] theorem State.storeFrame_ttcEn (s : State) (e : RxFrame) : (s.storeFrame e).ttcEn = s.ttcEn := by
  unfold State.storeFrame; repeat' split
  all_goals simp
@[simp] theorem State.storeFrame_timer (s : State) (e : RxFrame) : (s.storeFrame e).timer = s.timer := by
  unfold State.storeFrame; repeat' split
  all_goals simp
@[simp] theorem State.storeFrame_prescCnt (s : State) (e : RxFrame) : (s.storeFrame e).prescCnt = s.prescCnt := by
  unfold State.storeFrame; repeat' split
  all_goals simp
@[simp] theorem State.storeFrame_released (s : State) (e : RxFrame) : (s.storeFrame e).released = s.released := by
  unfold State.storeFrame; repeat' split
  all_goals simp
@[simp] theorem State.storeFrame_params (s : State) (e : RxFrame) : (s.storeFrame e).params = s.params := by
  unfold State.storeFrame; repeat' split
  all_goals simp
@[simp] theorem State.storeFrame_inputs (s : State) (e : RxFrame) : (s.storeFrame e).inputs = s.inputs := by
  unfold State.storeFrame; repeat' split
  all_goals simp
@[simp] theorem State.storeFrame_draws (s : State) (e : RxFrame) : (s.storeFrame e).draws = s.draws := by
  unfold State.storeFrame; repeat' split
  all_goals simp

/-! ### `ttcCompare()` (44 R130). -/

@[simp] theorem State.ttcCompare_resp (s : State) : (s.ttcCompare).resp = s.resp := by
  unfold State.ttcCompare; simp only; split <;> simp
@[simp] theorem State.ttcCompare_mode (s : State) : (s.ttcCompare).mode = s.mode := by
  unfold State.ttcCompare; simp only; split <;> simp
@[simp] theorem State.ttcCompare_workMode (s : State) : (s.ttcCompare).workMode = s.workMode := by
  unfold State.ttcCompare; simp only; split <;> simp
@[simp] theorem State.ttcCompare_btSlow (s : State) : (s.ttcCompare).btSlow = s.btSlow := by
  unfold State.ttcCompare; simp only; split <;> simp
@[simp] theorem State.ttcCompare_btFast (s : State) : (s.ttcCompare).btFast = s.btFast := by
  unfold State.ttcCompare; simp only; split <;> simp
@[simp] theorem State.ttcCompare_filt (s : State) : (s.ttcCompare).filt = s.filt := by
  unfold State.ttcCompare; simp only; split <;> simp
@[simp] theorem State.ttcCompare_txOpt (s : State) : (s.ttcCompare).txOpt = s.txOpt := by
  unfold State.ttcCompare; simp only; split <;> simp
@[simp] theorem State.ttcCompare_afwl (s : State) : (s.ttcCompare).afwl = s.afwl := by
  unfold State.ttcCompare; simp only; split <;> simp
@[simp] theorem State.ttcCompare_rxPolicy (s : State) : (s.ttcCompare).rxPolicy = s.rxPolicy := by
  unfold State.ttcCompare; simp only; split <;> simp
@[simp] theorem State.ttcCompare_ewl (s : State) : (s.ttcCompare).ewl = s.ewl := by
  unfold State.ttcCompare; simp only; split <;> simp
@[simp] theorem State.ttcCompare_ttcCfg (s : State) : (s.ttcCompare).ttcCfg = s.ttcCfg := by
  unfold State.ttcCompare; simp only; split <;> simp
@[simp] theorem State.ttcCompare_ie (s : State) : (s.ttcCompare).ie = s.ie := by
  unfold State.ttcCompare; simp only; split <;> simp
@[simp] theorem State.ttcCompare_ptb (s : State) : (s.ttcCompare).ptb = s.ptb := by
  unfold State.ttcCompare; simp only; split <;> simp
@[simp] theorem State.ttcCompare_stb (s : State) : (s.ttcCompare).stb = s.stb := by
  unfold State.ttcCompare; simp only; split <;> simp
@[simp] theorem State.ttcCompare_fillPtr (s : State) : (s.ttcCompare).fillPtr = s.fillPtr := by
  unfold State.ttcCompare; simp only; split <;> simp
@[simp] theorem State.ttcCompare_ptbEn (s : State) : (s.ttcCompare).ptbEn = s.ptbEn := by
  unfold State.ttcCompare; simp only; split <;> simp
@[simp] theorem State.ttcCompare_stbEn (s : State) : (s.ttcCompare).stbEn = s.stbEn := by
  unfold State.ttcCompare; simp only; split <;> simp
@[simp] theorem State.ttcCompare_nextSeq (s : State) : (s.ttcCompare).nextSeq = s.nextSeq := by
  unfold State.ttcCompare; simp only; split <;> simp
@[simp] theorem State.ttcCompare_rx (s : State) : (s.ttcCompare).rx = s.rx := by
  unfold State.ttcCompare; simp only; split <;> simp
@[simp] theorem State.ttcCompare_recCount (s : State) : (s.ttcCompare).recCount = s.recCount := by
  unfold State.ttcCompare; simp only; split <;> simp
@[simp] theorem State.ttcCompare_tecCount (s : State) : (s.ttcCompare).tecCount = s.tecCount := by
  unfold State.ttcCompare; simp only; split <;> simp
@[simp] theorem State.ttcCompare_busOff (s : State) : (s.ttcCompare).busOff = s.busOff := by
  unfold State.ttcCompare; simp only; split <;> simp
@[simp] theorem State.ttcCompare_lastErrorType (s : State) : (s.ttcCompare).lastErrorType = s.lastErrorType := by
  unfold State.ttcCompare; simp only; split <;> simp
@[simp] theorem State.ttcCompare_alc (s : State) : (s.ttcCompare).alc = s.alc := by
  unfold State.ttcCompare; simp only; split <;> simp
@[simp] theorem State.ttcCompare_ttcEn (s : State) : (s.ttcCompare).ttcEn = s.ttcEn := by
  unfold State.ttcCompare; simp only; split <;> simp
@[simp] theorem State.ttcCompare_timer (s : State) : (s.ttcCompare).timer = s.timer := by
  unfold State.ttcCompare; simp only; split <;> simp
@[simp] theorem State.ttcCompare_prescCnt (s : State) : (s.ttcCompare).prescCnt = s.prescCnt := by
  unfold State.ttcCompare; simp only; split <;> simp
@[simp] theorem State.ttcCompare_params (s : State) : (s.ttcCompare).params = s.params := by
  unfold State.ttcCompare; simp only; split <;> simp
@[simp] theorem State.ttcCompare_inputs (s : State) : (s.ttcCompare).inputs = s.inputs := by
  unfold State.ttcCompare; simp only; split <;> simp
@[simp] theorem State.ttcCompare_draws (s : State) : (s.ttcCompare).draws = s.draws := by
  unfold State.ttcCompare; simp only; split <;> simp

/-! ### The slots of a TX_ABORT (41 R96). -/

@[simp] theorem State.abortSlots_resp (s : State) (p t : Bool) : (s.abortSlots p t).resp = s.resp := rfl
@[simp] theorem State.abortSlots_mode (s : State) (p t : Bool) : (s.abortSlots p t).mode = s.mode := rfl
@[simp] theorem State.abortSlots_workMode (s : State) (p t : Bool) : (s.abortSlots p t).workMode = s.workMode := rfl
@[simp] theorem State.abortSlots_btSlow (s : State) (p t : Bool) : (s.abortSlots p t).btSlow = s.btSlow := rfl
@[simp] theorem State.abortSlots_btFast (s : State) (p t : Bool) : (s.abortSlots p t).btFast = s.btFast := rfl
@[simp] theorem State.abortSlots_filt (s : State) (p t : Bool) : (s.abortSlots p t).filt = s.filt := rfl
@[simp] theorem State.abortSlots_txOpt (s : State) (p t : Bool) : (s.abortSlots p t).txOpt = s.txOpt := rfl
@[simp] theorem State.abortSlots_afwl (s : State) (p t : Bool) : (s.abortSlots p t).afwl = s.afwl := rfl
@[simp] theorem State.abortSlots_rxPolicy (s : State) (p t : Bool) : (s.abortSlots p t).rxPolicy = s.rxPolicy := rfl
@[simp] theorem State.abortSlots_ewl (s : State) (p t : Bool) : (s.abortSlots p t).ewl = s.ewl := rfl
@[simp] theorem State.abortSlots_ttcCfg (s : State) (p t : Bool) : (s.abortSlots p t).ttcCfg = s.ttcCfg := rfl
@[simp] theorem State.abortSlots_ie (s : State) (p t : Bool) : (s.abortSlots p t).ie = s.ie := rfl
@[simp] theorem State.abortSlots_fillPtr (s : State) (p t : Bool) : (s.abortSlots p t).fillPtr = s.fillPtr := rfl
@[simp] theorem State.abortSlots_ptbEn (s : State) (p t : Bool) : (s.abortSlots p t).ptbEn = s.ptbEn := rfl
@[simp] theorem State.abortSlots_stbEn (s : State) (p t : Bool) : (s.abortSlots p t).stbEn = s.stbEn := rfl
@[simp] theorem State.abortSlots_nextSeq (s : State) (p t : Bool) : (s.abortSlots p t).nextSeq = s.nextSeq := rfl
@[simp] theorem State.abortSlots_rx (s : State) (p t : Bool) : (s.abortSlots p t).rx = s.rx := rfl
@[simp] theorem State.abortSlots_recCount (s : State) (p t : Bool) : (s.abortSlots p t).recCount = s.recCount := rfl
@[simp] theorem State.abortSlots_tecCount (s : State) (p t : Bool) : (s.abortSlots p t).tecCount = s.tecCount := rfl
@[simp] theorem State.abortSlots_busOff (s : State) (p t : Bool) : (s.abortSlots p t).busOff = s.busOff := rfl
@[simp] theorem State.abortSlots_lastErrorType (s : State) (p t : Bool) : (s.abortSlots p t).lastErrorType = s.lastErrorType := rfl
@[simp] theorem State.abortSlots_alc (s : State) (p t : Bool) : (s.abortSlots p t).alc = s.alc := rfl
@[simp] theorem State.abortSlots_ttcEn (s : State) (p t : Bool) : (s.abortSlots p t).ttcEn = s.ttcEn := rfl
@[simp] theorem State.abortSlots_timer (s : State) (p t : Bool) : (s.abortSlots p t).timer = s.timer := rfl
@[simp] theorem State.abortSlots_prescCnt (s : State) (p t : Bool) : (s.abortSlots p t).prescCnt = s.prescCnt := rfl
@[simp] theorem State.abortSlots_flags (s : State) (p t : Bool) : (s.abortSlots p t).flags = s.flags := rfl
@[simp] theorem State.abortSlots_params (s : State) (p t : Bool) : (s.abortSlots p t).params = s.params := rfl
@[simp] theorem State.abortSlots_inputs (s : State) (p t : Bool) : (s.abortSlots p t).inputs = s.inputs := rfl
@[simp] theorem State.abortSlots_draws (s : State) (p t : Bool) : (s.abortSlots p t).draws = s.draws := rfl

/-! ### The bit timing (40 R80). -/

@[simp] theorem State.setTiming_resp (s : State) (p : Phase) (t : BitTiming) : (s.setTiming p t).resp = s.resp := by
  cases p <;> rfl
@[simp] theorem State.setTiming_mode (s : State) (p : Phase) (t : BitTiming) : (s.setTiming p t).mode = s.mode := by
  cases p <;> rfl
@[simp] theorem State.setTiming_workMode (s : State) (p : Phase) (t : BitTiming) : (s.setTiming p t).workMode = s.workMode := by
  cases p <;> rfl
@[simp] theorem State.setTiming_filt (s : State) (p : Phase) (t : BitTiming) : (s.setTiming p t).filt = s.filt := by
  cases p <;> rfl
@[simp] theorem State.setTiming_txOpt (s : State) (p : Phase) (t : BitTiming) : (s.setTiming p t).txOpt = s.txOpt := by
  cases p <;> rfl
@[simp] theorem State.setTiming_afwl (s : State) (p : Phase) (t : BitTiming) : (s.setTiming p t).afwl = s.afwl := by
  cases p <;> rfl
@[simp] theorem State.setTiming_rxPolicy (s : State) (p : Phase) (t : BitTiming) : (s.setTiming p t).rxPolicy = s.rxPolicy := by
  cases p <;> rfl
@[simp] theorem State.setTiming_ewl (s : State) (p : Phase) (t : BitTiming) : (s.setTiming p t).ewl = s.ewl := by
  cases p <;> rfl
@[simp] theorem State.setTiming_ttcCfg (s : State) (p : Phase) (t : BitTiming) : (s.setTiming p t).ttcCfg = s.ttcCfg := by
  cases p <;> rfl
@[simp] theorem State.setTiming_ie (s : State) (p : Phase) (t : BitTiming) : (s.setTiming p t).ie = s.ie := by
  cases p <;> rfl
@[simp] theorem State.setTiming_ptb (s : State) (p : Phase) (t : BitTiming) : (s.setTiming p t).ptb = s.ptb := by
  cases p <;> rfl
@[simp] theorem State.setTiming_stb (s : State) (p : Phase) (t : BitTiming) : (s.setTiming p t).stb = s.stb := by
  cases p <;> rfl
@[simp] theorem State.setTiming_fillPtr (s : State) (p : Phase) (t : BitTiming) : (s.setTiming p t).fillPtr = s.fillPtr := by
  cases p <;> rfl
@[simp] theorem State.setTiming_ptbEn (s : State) (p : Phase) (t : BitTiming) : (s.setTiming p t).ptbEn = s.ptbEn := by
  cases p <;> rfl
@[simp] theorem State.setTiming_stbEn (s : State) (p : Phase) (t : BitTiming) : (s.setTiming p t).stbEn = s.stbEn := by
  cases p <;> rfl
@[simp] theorem State.setTiming_nextSeq (s : State) (p : Phase) (t : BitTiming) : (s.setTiming p t).nextSeq = s.nextSeq := by
  cases p <;> rfl
@[simp] theorem State.setTiming_rx (s : State) (p : Phase) (t : BitTiming) : (s.setTiming p t).rx = s.rx := by
  cases p <;> rfl
@[simp] theorem State.setTiming_recCount (s : State) (p : Phase) (t : BitTiming) : (s.setTiming p t).recCount = s.recCount := by
  cases p <;> rfl
@[simp] theorem State.setTiming_tecCount (s : State) (p : Phase) (t : BitTiming) : (s.setTiming p t).tecCount = s.tecCount := by
  cases p <;> rfl
@[simp] theorem State.setTiming_busOff (s : State) (p : Phase) (t : BitTiming) : (s.setTiming p t).busOff = s.busOff := by
  cases p <;> rfl
@[simp] theorem State.setTiming_lastErrorType (s : State) (p : Phase) (t : BitTiming) : (s.setTiming p t).lastErrorType = s.lastErrorType := by
  cases p <;> rfl
@[simp] theorem State.setTiming_alc (s : State) (p : Phase) (t : BitTiming) : (s.setTiming p t).alc = s.alc := by
  cases p <;> rfl
@[simp] theorem State.setTiming_ttcEn (s : State) (p : Phase) (t : BitTiming) : (s.setTiming p t).ttcEn = s.ttcEn := by
  cases p <;> rfl
@[simp] theorem State.setTiming_timer (s : State) (p : Phase) (t : BitTiming) : (s.setTiming p t).timer = s.timer := by
  cases p <;> rfl
@[simp] theorem State.setTiming_prescCnt (s : State) (p : Phase) (t : BitTiming) : (s.setTiming p t).prescCnt = s.prescCnt := by
  cases p <;> rfl
@[simp] theorem State.setTiming_released (s : State) (p : Phase) (t : BitTiming) : (s.setTiming p t).released = s.released := by
  cases p <;> rfl
@[simp] theorem State.setTiming_flags (s : State) (p : Phase) (t : BitTiming) : (s.setTiming p t).flags = s.flags := by
  cases p <;> rfl
@[simp] theorem State.setTiming_params (s : State) (p : Phase) (t : BitTiming) : (s.setTiming p t).params = s.params := by
  cases p <;> rfl
@[simp] theorem State.setTiming_inputs (s : State) (p : Phase) (t : BitTiming) : (s.setTiming p t).inputs = s.inputs := by
  cases p <;> rfl
@[simp] theorem State.setTiming_draws (s : State) (p : Phase) (t : BitTiming) : (s.setTiming p t).draws = s.draws := by
  cases p <;> rfl

end Sys2Proof.Machine
end

