-- ==== Sys2Proof/Laws/Slots.lean ====
section
/-! SUPPORT. The transmit slots slot by slot: reading a slot after an update, and the invariants of spec/10_state.md
R46 said pointwise. -/

namespace Sys2Proof.Machine

/-! ### Reading a slot -/

@[simp] theorem State.slot_zero (s : State) : s.slot 0 = s.ptb := rfl

@[simp] theorem State.slot_succ (s : State) (j : Nat) : s.slot (j + 1) = s.stb[j]?.getD emptySlot := by
  simp [State.slot]

/-- The slots are a function of the two buffers. -/
theorem State.slot_congr {s t : State} (hp : t.ptb = s.ptb) (hs : t.stb = s.stb) : t.slot = s.slot := by
  funext k
  cases k <;> simp [hp, hs]

theorem State.slot_eq_slots (s : State) (k : Nat) : s.slot k = s.slots.getD k emptySlot := by
  cases k <;> simp [State.slots]

/-- A number behind the last slot reads as an Empty slot. -/
theorem State.slot_of_gt (s : State) {k : Nat} (h : s.nstb < k) : s.slot k = emptySlot := by
  cases k with
  | zero => omega
  | succ j => simp only [State.nstb] at h; simp [show s.stb.length ≤ j by omega]

/-- Reading slot `j` after a change of slot `k`. -/
theorem State.slot_modifySlot (s : State) (k j : Nat) (f : Slot → Slot) :
    (s.modifySlot k f).slot j = if j = k ∧ k ≤ s.nstb then f (s.slot j) else s.slot j := by
  cases j with
  | zero => cases k <;> simp
  | succ j =>
    cases k with
    | zero => simp
    | succ k =>
      simp only [State.slot_succ, State.modifySlot_stb, Nat.add_one_ne_zero, if_false, Nat.add_sub_cancel,
        Nat.succ_le_iff, State.nstb, List.getElem?_modify]
      by_cases hk : k < s.stb.length
      · by_cases hj : k = j
        · subst hj; simp [hk]
        · simp [hj, Ne.symm hj]
      · by_cases hj : k = j
        · subst hj; simp [hk]
        · simp [hj, Ne.symm hj]

@[simp] theorem State.nstb_modifySlot (s : State) (k : Nat) (f : Slot → Slot) :
    (s.modifySlot k f).nstb = s.nstb := by
  simp only [State.nstb, State.modifySlot_stb]; split <;> simp

theorem State.exists_slot_of_mem {s : State} {sl : Slot} (h : sl ∈ s.slots) : ∃ k, k ≤ s.nstb ∧ s.slot k = sl := by
  obtain ⟨k, hk, rfl⟩ := List.mem_iff_getElem.mp h
  refine ⟨k, ?_, ?_⟩
  · simp [State.slots] at hk; simp [State.nstb]; omega
  · rw [State.slot_eq_slots, List.getD_eq_getElem _ _ hk]

theorem State.mem_slots {s : State} {k : Nat} (h : k ≤ s.nstb) : s.slot k ∈ s.slots := by
  have hk : k < s.slots.length := by simp [State.slots, State.nstb] at *; omega
  rw [State.slot_eq_slots, List.getD_eq_getElem _ _ hk]
  exact List.getElem_mem hk

/-- A property that an Empty slot has holds of every slot of the list if it holds of every number. -/
theorem State.forall_slots {s : State} {p : Slot → Prop} (he : p emptySlot) :
    (∀ sl ∈ s.slots, p sl) ↔ ∀ k, p (s.slot k) := by
  constructor
  · intro h k
    by_cases hk : k ≤ s.nstb
    · exact h _ (State.mem_slots hk)
    · rw [s.slot_of_gt (by omega)]; exact he
  · intro h sl hsl
    obtain ⟨k, -, rfl⟩ := State.exists_slot_of_mem hsl
    exact h k

/-- A list read beyond its end gives the default, so a property the default lacks holds of an entry only. -/
theorem exists_mem_iff_getD {α : Type} {l : List α} {d : α} {p : α → Prop} (hd : ¬ p d) :
    (∃ x ∈ l, p x) ↔ ∃ j : Nat, p (l[j]?.getD d) := by
  constructor
  · rintro ⟨x, hx, hp⟩
    obtain ⟨j, hj, rfl⟩ := List.mem_iff_getElem.mp hx
    exact ⟨j, by simpa [hj] using hp⟩
  · rintro ⟨j, hp⟩
    by_cases hj : j < l.length
    · exact ⟨_, List.getElem_mem hj, by simpa [hj] using hp⟩
    · exact absurd (by simpa [hj] using hp) hd

/-! ### The slot predicates -/

@[simp] theorem Slot.isEmpty_iff (sl : Slot) : sl.isEmpty = true ↔ sl.st = .empty := by simp [Slot.isEmpty]

@[simp] theorem Slot.isQueued_iff (sl : Slot) : sl.isQueued = true ↔ sl.st = .queued := by simp [Slot.isQueued]

@[simp] theorem Slot.isTransmitting_iff (sl : Slot) : sl.isTransmitting = true ↔ sl.st = .transmitting := by
  simp [Slot.isTransmitting]

@[simp] theorem Slot.isEmpty_eq_false_iff (sl : Slot) : sl.isEmpty = false ↔ sl.st ≠ .empty := by
  simp [Slot.isEmpty]

@[simp] theorem Slot.isTransmitting_eq_false_iff (sl : Slot) : sl.isTransmitting = false ↔ sl.st ≠ .transmitting := by
  simp [Slot.isTransmitting]

@[simp] theorem emptySlot_st : emptySlot.st = .empty := rfl

@[simp] theorem emptySlot_abortReq : emptySlot.abortReq = false := rfl

theorem State.busy_iff (s : State) : s.busy = true ↔ ∃ k, (s.slot k).st = .transmitting := by
  simp only [State.busy, Bool.or_eq_true, List.any_eq_true, Slot.isTransmitting_iff]
  rw [exists_mem_iff_getD (d := emptySlot) (by simp)]
  constructor
  · rintro (h | ⟨j, h⟩)
    · exact ⟨0, h⟩
    · exact ⟨j + 1, h⟩
  · rintro ⟨k, h⟩
    cases k with
    | zero => exact .inl h
    | succ j => exact .inr ⟨j, h⟩

theorem State.stb_all_empty_iff (s : State) :
    s.stb.all Slot.isEmpty = true ↔ ∀ j, (s.slot (j + 1)).st = .empty := by
  have h := not_congr (exists_mem_iff_getD (l := s.stb) (d := emptySlot) (p := fun sl => sl.st ≠ .empty) (by simp))
  simp only [not_exists, not_and, not_not] at h
  simp only [List.all_eq_true, Slot.isEmpty_iff, State.slot_succ]
  exact h

/-- The Transmitting slot that `txSlot` names is one, and there is one if any slot is Transmitting. -/
theorem State.txSlot_some {s : State} {k : Nat} (h : s.txSlot = some k) :
    (s.slot k).st = .transmitting ∧ k ≤ s.nstb := by
  unfold State.txSlot at h
  split at h
  · cases h; simp_all
  · obtain ⟨j, hj, rfl⟩ := Option.map_eq_some_iff.mp h
    rw [List.findIdx?_eq_some_iff_getElem] at hj
    obtain ⟨hlt, ht, -⟩ := hj
    rw [Slot.isTransmitting_iff] at ht
    exact ⟨by simpa [hlt] using ht, by simp only [State.nstb]; omega⟩

theorem State.txSlot_none {s : State} (h : s.txSlot = none) (k : Nat) : (s.slot k).st ≠ .transmitting := by
  unfold State.txSlot at h
  split at h
  · cases h
  · rename_i h0
    cases k with
    | zero => simpa using h0
    | succ j =>
      simp only [Option.map_eq_none_iff, List.findIdx?_eq_none_iff] at h
      by_cases hj : j < s.stb.length
      · have := h _ (List.getElem_mem hj)
        simpa [hj] using this
      · simp [hj]

theorem State.txSlot_isSome_iff (s : State) : s.txSlot.isSome = true ↔ s.busy = true := by
  rw [State.busy_iff]
  constructor
  · intro h
    obtain ⟨k, hk⟩ := Option.isSome_iff_exists.mp h
    exact ⟨k, (State.txSlot_some hk).1⟩
  · rintro ⟨k, hk⟩
    cases h : s.txSlot with
    | none => exact absurd hk (State.txSlot_none h k)
    | some _ => rfl

/-! ### The invariants, pointwise -/

/-- The invariants of 10 R46 said slot number by slot number. -/
structure State.Inv (s : State) : Prop where
  one : ∀ j k, (s.slot j).st = .transmitting → (s.slot k).st = .transmitting → j = k
  busyNormal : ∀ k, (s.slot k).st = .transmitting → s.mode = .normal ∧ s.busOff = false
  fifo : s.rx.length ≤ 8
  overflow : s.flag .rxOverflow = true → s.rx.length = 8
  ptbEn : s.ptbEn = true → s.ptb.st ≠ .empty
  stbEn : s.stbEn ≠ .off → ∃ j, (s.slot (j + 1)).st ≠ .empty
  abort : ∀ k, (s.slot k).abortReq = true → (s.slot k).st = .transmitting
  stamps : ∀ j k, (s.slot j).st ≠ .empty → (s.slot k).st ≠ .empty → (s.slot j).seq = (s.slot k).seq → j = k
  below : ∀ k, (s.slot k).st ≠ .empty → (s.slot k).seq < s.nextSeq
  frames : ∀ k, (s.slot k).st ≠ .empty → (s.slot k).frame.wellFormed = true

theorem List.countP_le_one_iff {α : Type} (p : α → Bool) (l : List α) :
    l.countP p ≤ 1 ↔ ∀ i j (hi : i < l.length) (hj : j < l.length), p l[i] = true → p l[j] = true → i = j := by
  induction l with
  | nil => simp
  | cons a l ih =>
    rw [List.countP_cons]
    by_cases ha : p a = true
    · rw [if_pos ha, show l.countP p + 1 ≤ 1 ↔ l.countP p = 0 by omega, List.countP_eq_zero]
      constructor
      · intro h i j hi hj hpi hpj
        cases i with
        | zero =>
          cases j with
          | zero => rfl
          | succ j => exact absurd hpj (h _ (List.getElem_mem (by simpa using hj)))
        | succ i => exact absurd hpi (h _ (List.getElem_mem (by simpa using hi)))
      · intro h x hx hp
        obtain ⟨i, hi, rfl⟩ := List.mem_iff_getElem.mp hx
        exact absurd (h 0 (i + 1) (by simp) (by simpa using hi) (by simpa using ha) (by simpa using hp)) (by omega)
    · simp only [Bool.not_eq_true] at ha
      simp only [ha, Bool.false_eq_true, if_false, Nat.add_zero, ih]
      constructor
      · intro h i j hi hj hpi hpj
        cases i with
        | zero => simp [ha] at hpi
        | succ i =>
          cases j with
          | zero => simp [ha] at hpj
          | succ j =>
            have := h i j (by simpa using hi) (by simpa using hj) (by simpa using hpi) (by simpa using hpj)
            omega
      · intro h i j hi hj hpi hpj
        have := h (i + 1) (j + 1) (by simpa using hi) (by simpa using hj) (by simpa using hpi) (by simpa using hpj)
        omega

/-- The images of the entries that satisfy `p` are pairwise distinct. -/
theorem List.nodup_map_filter_iff {α β : Type} (p : α → Bool) (f : α → β) (l : List α) :
    ((l.filter p).map f).Nodup ↔
      ∀ i j (hi : i < l.length) (hj : j < l.length), p l[i] = true → p l[j] = true → f l[i] = f l[j] → i = j := by
  induction l with
  | nil => simp
  | cons a l ih =>
    by_cases ha : p a = true
    · rw [List.filter_cons_of_pos ha, List.map_cons, List.nodup_cons, ih]
      constructor
      · rintro ⟨hn, h⟩ i j hi hj hpi hpj he
        cases i with
        | zero =>
          cases j with
          | zero => rfl
          | succ j =>
            refine absurd (List.mem_map.mpr ⟨l[j]'(by simpa using hj), ?_, by simpa using he.symm⟩) hn
            exact List.mem_filter.mpr ⟨List.getElem_mem _, by simpa using hpj⟩
        | succ i =>
          cases j with
          | zero =>
            refine absurd (List.mem_map.mpr ⟨l[i]'(by simpa using hi), ?_, by simpa using he⟩) hn
            exact List.mem_filter.mpr ⟨List.getElem_mem _, by simpa using hpi⟩
          | succ j =>
            have := h i j (by simpa using hi) (by simpa using hj) (by simpa using hpi) (by simpa using hpj)
              (by simpa using he)
            omega
      · intro h
        constructor
        · intro hm
          obtain ⟨x, hx, he⟩ := List.mem_map.mp hm
          obtain ⟨hx, hp⟩ := List.mem_filter.mp hx
          obtain ⟨i, hi, rfl⟩ := List.mem_iff_getElem.mp hx
          exact absurd (h 0 (i + 1) (by simp) (by simpa using hi) (by simpa using ha) (by simpa using hp)
            (by simpa using he.symm)) (by omega)
        · intro i j hi hj hpi hpj he
          have := h (i + 1) (j + 1) (by simpa using hi) (by simpa using hj) (by simpa using hpi) (by simpa using hpj)
            (by simpa using he)
          omega
    · rw [List.filter_cons_of_neg ha, ih]
      simp only [Bool.not_eq_true] at ha
      constructor
      · intro h i j hi hj hpi hpj he
        cases i with
        | zero => simp [ha] at hpi
        | succ i =>
          cases j with
          | zero => simp [ha] at hpj
          | succ j =>
            have := h i j (by simpa using hi) (by simpa using hj) (by simpa using hpi) (by simpa using hpj)
              (by simpa using he)
            omega
      · intro h i j hi hj hpi hpj he
        have := h (i + 1) (j + 1) (by simpa using hi) (by simpa using hj) (by simpa using hpi) (by simpa using hpj)
          (by simpa using he)
        omega

/-- A relation between entries of the slot list is one between slot numbers, if it holds where one is beyond the end. -/
theorem State.forall_slots_pair {s : State} {p : Slot → Slot → Prop} (hl : ∀ x, ¬ p emptySlot x)
    (hr : ∀ x, ¬ p x emptySlot) :
    (∀ i j (hi : i < s.slots.length) (hj : j < s.slots.length), p s.slots[i] s.slots[j] → i = j) ↔
      ∀ j k, p (s.slot j) (s.slot k) → j = k := by
  constructor
  · intro h j k hp
    have key : ∀ m, ¬ m < s.slots.length → s.slot m = emptySlot := by
      intro m hm
      exact s.slot_of_gt (by simp [State.slots, State.nstb] at *; omega)
    by_cases hj : j < s.slots.length
    · by_cases hk : k < s.slots.length
      · refine h j k hj hk ?_
        rwa [State.slot_eq_slots, State.slot_eq_slots, List.getD_eq_getElem _ _ hj, List.getD_eq_getElem _ _ hk] at hp
      · rw [key k hk] at hp; exact absurd hp (hr _)
    · rw [key j hj] at hp; exact absurd hp (hl _)
  · intro h i j hi hj hp
    refine h i j ?_
    rwa [State.slot_eq_slots, State.slot_eq_slots, List.getD_eq_getElem _ _ hi, List.getD_eq_getElem _ _ hj]

/-- I1 pointwise. -/
theorem State.inv1_iff (s : State) :
    s.inv1 = true ↔ ∀ j k, (s.slot j).st = .transmitting → (s.slot k).st = .transmitting → j = k := by
  simp only [State.inv1, decide_eq_true_eq, List.countP_le_one_iff, Slot.isTransmitting_iff]
  have := s.forall_slots_pair (p := fun a b => a.st = .transmitting ∧ b.st = .transmitting) (by simp) (by simp)
  simpa only [and_imp] using this

/-- I8, its first half, pointwise. -/
theorem State.stamps_nodup_iff (s : State) :
    s.stamps.Nodup ↔
      ∀ j k, (s.slot j).st ≠ .empty → (s.slot k).st ≠ .empty → (s.slot j).seq = (s.slot k).seq → j = k := by
  rw [State.stamps, List.nodup_map_filter_iff]
  have := s.forall_slots_pair (p := fun a b => a.st ≠ .empty ∧ b.st ≠ .empty ∧ a.seq = b.seq) (by simp) (by simp)
  simpa using this

/-- 10 R46 as a check is 10 R46 pointwise. -/
theorem State.inv_iff (s : State) : s.inv = true ↔ s.Inv := by
  have h7 : s.inv7 = true ↔ ∀ k, (s.slot k).abortReq = true → (s.slot k).st = .transmitting := by
    rw [State.inv7, List.all_eq_true]
    refine (s.forall_slots (p := fun sl => (!sl.abortReq || sl.isTransmitting) = true) (by decide)).trans ?_
    simp [or_iff_not_imp_left]
  have h10 : s.inv10 = true ↔ ∀ k, (s.slot k).st ≠ .empty → (s.slot k).frame.wellFormed = true := by
    rw [State.inv10, List.all_eq_true]
    refine (s.forall_slots (p := fun sl => (sl.isEmpty || sl.frame.wellFormed) = true) (by decide)).trans ?_
    simp [or_iff_not_imp_left]
  have h8 : (s.stamps.all fun q => decide (q < s.nextSeq)) = true ↔
      ∀ k, (s.slot k).st ≠ .empty → (s.slot k).seq < s.nextSeq := by
    rw [State.stamps, List.all_map, List.all_filter, List.all_eq_true]
    refine (s.forall_slots (p := fun sl =>
      (!(!sl.isEmpty) || ((fun q => decide (q < s.nextSeq)) ∘ Slot.seq) sl) = true) (by simp [Slot.isEmpty])).trans ?_
    simp [or_iff_not_imp_left]
  have h2 : s.inv2 = true ↔ ∀ k, (s.slot k).st = .transmitting → s.mode = .normal ∧ s.busOff = false := by
    have hb := s.busy_iff
    rw [State.inv2]
    by_cases h : s.busy = true
    · obtain ⟨k, hk⟩ := hb.mp h
      simp only [h, Bool.not_true, Bool.false_or, Bool.and_eq_true, beq_iff_eq, Bool.not_eq_true']
      exact ⟨fun h _ _ => h, fun h => h k hk⟩
    · have : ∀ k, (s.slot k).st ≠ .transmitting := fun k hk => h (hb.mpr ⟨k, hk⟩)
      simp only [Bool.not_eq_true] at h
      simp only [h, Bool.not_false, Bool.true_or, true_iff]
      exact fun k hk => absurd hk (this k)
  have h6 : s.inv6 = true ↔ (s.stbEn ≠ .off → ∃ j, (s.slot (j + 1)).st ≠ .empty) := by
    simp only [State.inv6, Bool.or_eq_true, beq_iff_eq, List.any_eq_true, Bool.not_eq_true', Slot.isEmpty_eq_false_iff,
      State.slot_succ]
    rw [exists_mem_iff_getD (d := emptySlot) (p := fun sl => sl.st ≠ .empty) (by simp), or_iff_not_imp_left]
  have h9 : s.inv9 = true := by
    have h1 := s.recCount.isLt
    have h2 := s.tecCount.isLt
    rw [State.inv9, show Config.cntMax = 255 from rfl, Bool.and_eq_true, decide_eq_true_eq, decide_eq_true_eq]
    omega
  have h5 : s.inv5 = true ↔ (s.ptbEn = true → s.ptb.st ≠ .empty) := by
    rw [State.inv5]; cases s.ptbEn <;> simp
  have h4 : s.inv4 = true ↔ (s.flag .rxOverflow = true → s.rx.length = 8) := by
    rw [State.inv4, show Config.nrx = 8 from rfl]; cases s.flag .rxOverflow <;> simp
  have h3 : s.inv3 = true ↔ s.rx.length ≤ 8 := by rw [State.inv3, show Config.nrx = 8 from rfl, decide_eq_true_eq]
  simp only [State.inv, State.invRest, Bool.and_eq_true, State.inv8, decide_eq_true_eq, State.inv1_iff,
    State.stamps_nodup_iff, h2, h3, h4, h5, h6, h7, h8, h9, h10]
  constructor
  · rintro ⟨a, ⟨⟨⟨⟨⟨⟨⟨b, c⟩, d⟩, e⟩, f⟩, g⟩, h, i⟩, -⟩, j⟩
    exact ⟨a, b, c, d, e, f, g, h, i, j⟩
  · rintro ⟨a, b, c, d, e, f, g, h, i, j⟩
    exact ⟨a, ⟨⟨⟨⟨⟨⟨⟨b, c⟩, d⟩, e⟩, f⟩, g⟩, h, i⟩, trivial⟩, j⟩

end Sys2Proof.Machine
end

