-- ==== Sys2Proof/Laws/Ops.lean ====
section
/-! SUPPORT. One lemma per shared operation, saying once what it does: flags, the end of an attempt, the counters, the
scheduler's choice, the FIFO. -/

namespace Sys2Proof.Machine

open Sys2Proof.Config

/-! ### Flags (45) -/

theorem Flag.mask_getLsbD (g : Flag) (i : Nat) : g.mask.getLsbD i = decide (i = g.bit) := by
  by_cases h : i < 14
  · cases g <;> (revert i; decide)
  · rw [BitVec.getLsbD_of_ge _ _ (Nat.not_lt.mp h)]
    symm; rw [decide_eq_false_iff_not]; cases g <;> simp only [Flag.bit] <;> omega

theorem State.flags_setFlag (s : State) (g : Flag) (i : Nat) :
    (s.setFlag g).flags.getLsbD i = (s.flags.getLsbD i || decide (i = g.bit)) := by
  simp [Flag.mask_getLsbD]

theorem State.flags_clearFlag (s : State) (g : Flag) (i : Nat) :
    (s.clearFlag g).flags.getLsbD i = (s.flags.getLsbD i && decide (i ≠ g.bit)) := by
  by_cases h : i < 14
  · rw [State.clearFlag_flags, BitVec.getLsbD_and, BitVec.getLsbD_not, Flag.mask_getLsbD]
    simp [h]
  · simp [BitVec.getLsbD_of_ge _ _ (Nat.not_lt.mp h)]

theorem State.flags_setFlagIf (s : State) (c : Bool) (g : Flag) (i : Nat) :
    (s.setFlagIf c g).flags.getLsbD i = (s.flags.getLsbD i || c && decide (i = g.bit)) := by
  cases c <;> simp [Flag.mask_getLsbD]

theorem setMasked_getLsbD (v mask : BitVec 14) (b : Bool) (i : Nat) (h : i < 14) :
    (setMasked v mask b).getLsbD i = if mask.getLsbD i then b else v.getLsbD i := by
  simp [setMasked, h]

theorem State.view_getLsbD (s : State) (i : Nat) (h : i < 14) : s.view.getLsbD i = s.viewBit i := by
  simp [State.view, h]

/-! ### The Transmitting slot -/

/-- Under I1 the Transmitting slot is the one `txSlot` names. -/
theorem State.txSlot_eq {s : State} {k : Nat} (h1 : s.inv1 = true) (hk : (s.slot k).st = .transmitting) :
    s.txSlot = some k := by
  cases h : s.txSlot with
  | none => exact absurd hk (State.txSlot_none h k)
  | some j => rw [s.inv1_iff.mp h1 j k (State.txSlot_some h).1 hk]

theorem State.le_nstb_of_st_ne {s : State} {k : Nat} (h : (s.slot k).st ≠ .empty) : k ≤ s.nstb := by
  by_contra hk
  exact h (by rw [s.slot_of_gt (by omega)]; rfl)

theorem State.txSlot_eq_none {s : State} (h : ∀ k, (s.slot k).st ≠ .transmitting) : s.txSlot = none := by
  cases hk : s.txSlot with
  | none => rfl
  | some k => exact absurd (State.txSlot_some hk).1 (h k)

theorem State.endAttempt_of_txSlot {s : State} {k : Nat} (h : s.txSlot = some k) (c : FailCause) (d : AbortDraw) :
    s.endAttempt c d = s.failAttempt k c d := by simp [State.endAttempt, h]

theorem State.endAttempt_of_idle {s : State} (h : ∀ k, (s.slot k).st ≠ .transmitting) (c : FailCause)
    (d : AbortDraw) : s.endAttempt c d = s := by simp [State.endAttempt, State.txSlot_eq_none h]

/-! ### Slots after the operations that leave them alone -/

@[simp] theorem State.slot_respond (s : State) (c : ResultCode) (w : List Word) : (s.respond c w).slot = s.slot :=
  State.slot_congr rfl rfl

@[simp] theorem State.slot_setFlagIf (s : State) (c : Bool) (g : Flag) : (s.setFlagIf c g).slot = s.slot :=
  State.slot_congr (by simp) (by simp)

@[simp] theorem State.slot_setFlag (s : State) (g : Flag) : (s.setFlag g).slot = s.slot := State.slot_congr rfl rfl

@[simp] theorem State.slot_clearFlag (s : State) (g : Flag) : (s.clearFlag g).slot = s.slot := State.slot_congr rfl rfl

@[simp] theorem State.slot_stbBook (s : State) : s.stbBook.slot = s.slot := State.slot_congr (by simp) (by simp)

@[simp] theorem State.slot_ttcSlotEmptied (s : State) (k : Nat) : (s.ttcSlotEmptied k).slot = s.slot :=
  State.slot_congr (by simp) (by simp)

@[simp] theorem State.slot_enableEnds (s : State) (k : Nat) : (s.enableEnds k).slot = s.slot :=
  State.slot_congr (by simp) (by simp)

@[simp] theorem State.slot_ptbEnds (s : State) (k : Nat) : (s.ptbEnds k).slot = s.slot :=
  State.slot_congr (by simp) (by simp)

@[simp] theorem State.slot_countDraw (s : State) : s.countDraw.slot = s.slot := State.slot_congr (by simp) (by simp)

@[simp] theorem State.slot_countError (s : State) (ev : EvKind) : (s.countError ev).slot = s.slot :=
  State.slot_congr rfl rfl

@[simp] theorem State.slot_storeFrame (s : State) (e : RxFrame) : (s.storeFrame e).slot = s.slot :=
  State.slot_congr (by simp) (by simp)

@[simp] theorem State.slot_ttcCompare (s : State) : s.ttcCompare.slot = s.slot := State.slot_congr (by simp) (by simp)

@[simp] theorem State.slot_ttcRefReceived (s : State) : s.ttcRefReceived.slot = s.slot := State.slot_congr rfl rfl

@[simp] theorem State.slot_setTiming (s : State) (p : Phase) (t : BitTiming) : (s.setTiming p t).slot = s.slot :=
  State.slot_congr (by simp) (by simp)

/-! ### The end of an attempt (41 R91) -/

/-- The attempt's frame is dropped: it was single-shot, or its abort is honoured. -/
def State.drops (s : State) (k : Nat) (c : FailCause) (d : AbortDraw) : Bool := s.singleShot k || s.honours k c d

/-- An abort is honoured where one was requested, the draw honours it, and CFG_ENTER is not the cause. -/
theorem State.honours_iff (s : State) (k : Nat) (c : FailCause) (d : AbortDraw) :
    s.honours k c d = true ↔ c ≠ .configEntry ∧ (s.slot k).abortReq = true ∧ d.honour = true := by
  cases c <;> simp [State.honours, FailCause.mayHonour]

/-- The slots after an attempt that ended without success. -/
theorem State.slot_failAttempt (s : State) (k j : Nat) (c : FailCause) (d : AbortDraw) :
    (s.failAttempt k c d).slot j = if j = k ∧ k ≤ s.nstb then
      (if s.drops k c d then (s.slot j).emptied else (s.slot j).requeued) else s.slot j := by
  unfold State.failAttempt State.drops
  by_cases h1 : s.singleShot k = true
  · simp [h1, State.slot_modifySlot]
  · by_cases h2 : s.honours k c d = true
    · simp [h1, h2, State.slot_modifySlot]
    · simp [h1, h2, State.slot_modifySlot]

@[simp] theorem State.stb_length_failAttempt (s : State) (k : Nat) (c : FailCause) (d : AbortDraw) :
    (s.failAttempt k c d).stb.length = s.stb.length := by
  unfold State.failAttempt
  repeat' split
  all_goals simp
  all_goals repeat' split
  all_goals simp_all

/-- The three ways an attempt ends without success. -/
theorem State.failAttempt_cases (s : State) (k : Nat) (c : FailCause) (d : AbortDraw) :
    (s.singleShot k = true ∧ s.drops k c d = true
      ∧ s.failAttempt k c d = (((s.modifySlot k Slot.emptied).enableEnds k).stbBook).ttcSlotEmptied k)
    ∨ (s.singleShot k = false ∧ s.honours k c d = true ∧ s.drops k c d = true
      ∧ s.failAttempt k c d =
        ((((s.modifySlot k Slot.emptied).setFlag .txAborted).ptbEnds k).stbBook).ttcSlotEmptied k)
    ∨ (s.singleShot k = false ∧ s.honours k c d = false ∧ s.drops k c d = false
      ∧ s.failAttempt k c d = s.modifySlot k Slot.requeued) := by
  unfold State.failAttempt State.drops
  by_cases h1 : s.singleShot k = true
  · exact .inl ⟨h1, by simp [h1], by rw [if_pos h1]⟩
  · right
    by_cases h2 : s.honours k c d = true
    · exact .inl ⟨by simpa using h1, h2, by simp [h2], by rw [if_neg h1, if_pos h2]⟩
    · exact .inr ⟨by simpa using h1, by simpa using h2, by simp [h1, h2], by rw [if_neg h1, if_neg h2]⟩

theorem State.ptbEn_failAttempt (s : State) (k : Nat) (c : FailCause) (d : AbortDraw) :
    (s.failAttempt k c d).ptbEn = (s.ptbEn && !(s.drops k c d && decide (k = 0))) := by
  obtain ⟨-, hd, he⟩ | ⟨-, -, hd, he⟩ | ⟨-, -, hd, he⟩ := s.failAttempt_cases k c d <;> rw [hd, he]
  · by_cases hk : k = 0 <;> simp [hk]
  · by_cases hk : k = 0 <;> simp [hk]
  · simp

theorem State.released_failAttempt (s : State) (k : Nat) (c : FailCause) (d : AbortDraw) :
    (s.failAttempt k c d).released = (s.released && !(s.drops k c d && decide (k = s.ttcCfg.slotPtr.toNat))) := by
  obtain ⟨-, hd, he⟩ | ⟨-, -, hd, he⟩ | ⟨-, -, hd, he⟩ := s.failAttempt_cases k c d <;> rw [hd, he]
  · simp only [State.ttcSlotEmptied_released, State.stbBook_ttcCfg, State.enableEnds_ttcCfg, State.modifySlot_ttcCfg,
      State.stbBook_released, State.enableEnds_released, State.modifySlot_released]
    by_cases hk : k = s.ttcCfg.slotPtr.toNat <;> simp [hk]
  · simp only [State.ttcSlotEmptied_released, State.stbBook_ttcCfg, State.ptbEnds_ttcCfg, State.modifySlot_ttcCfg,
      State.stbBook_released, State.ptbEnds_released, State.modifySlot_released, State.setFlag_released,
      State.setFlag_ttcCfg]
    by_cases hk : k = s.ttcCfg.slotPtr.toNat <;> simp [hk]
  · simp

/-- Only an honoured abort touches the flags. -/
theorem State.flags_failAttempt (s : State) (k : Nat) (c : FailCause) (d : AbortDraw) :
    (s.failAttempt k c d).flags =
      if !s.singleShot k && s.honours k c d then s.flags ||| Flag.txAborted.mask
      else s.flags := by
  obtain ⟨h1, -, he⟩ | ⟨h1, h2, -, he⟩ | ⟨h1, h2, -, he⟩ := s.failAttempt_cases k c d <;> rw [he, h1]
  · simp
  · simp [h2]
  · simp [h2]

/-- The attempt that CFG_ENTER ends writes no flag (40 R77, D23). -/
@[simp] theorem State.flags_endAttempt_configEntry (s : State) (d : AbortDraw) :
    (s.endAttempt .configEntry d).flags = s.flags := by
  unfold State.endAttempt
  split
  · rw [State.flags_failAttempt]; simp [State.honours, FailCause.mayHonour]
  · rfl

/-- The STB is off once it holds no frame; a single-shot STB frame ends a one-frame enable. -/
theorem State.stbEn_failAttempt (s : State) (k : Nat) (c : FailCause) (d : AbortDraw) :
    (s.failAttempt k c d).stbEn =
      if s.drops k c d && (s.failAttempt k c d).stb.all Slot.isEmpty then .off
      else if s.singleShot k && decide (k ≠ 0) && decide (s.stbEn = .one) then .off else s.stbEn := by
  obtain ⟨h1, hd, he⟩ | ⟨h1, -, hd, he⟩ | ⟨h1, -, hd, he⟩ := s.failAttempt_cases k c d <;> rw [hd, he, h1]
  · simp
  · simp
  · simp

/-- After an attempt ended no slot is Transmitting, under I1. -/
theorem State.idle_of_failAttempt {s : State} {k : Nat} (h1 : s.inv1 = true) (hk : (s.slot k).st = .transmitting)
    (c : FailCause) (d : AbortDraw) (j : Nat) : ((s.failAttempt k c d).slot j).st ≠ .transmitting := by
  rw [State.slot_failAttempt]
  by_cases hj : j = k
  · rw [if_pos ⟨hj, State.le_nstb_of_st_ne (by rw [hk]; decide)⟩]
    split <;> simp [Slot.emptied, Slot.requeued]
  · rw [if_neg (by simp [hj])]
    exact fun h => hj (s.inv1_iff.mp h1 j k h hk)

theorem State.idle_of_endAttempt {s : State} (h1 : s.inv1 = true) (c : FailCause) (d : AbortDraw) (j : Nat) :
    ((s.endAttempt c d).slot j).st ≠ .transmitting := by
  by_cases h : ∃ k, (s.slot k).st = .transmitting
  · obtain ⟨k, hk⟩ := h
    rw [State.endAttempt_of_txSlot (State.txSlot_eq h1 hk)]
    exact State.idle_of_failAttempt h1 hk c d j
  · simp only [not_exists] at h
    rw [State.endAttempt_of_idle h]
    exact h j

@[simp] theorem State.stb_length_endAttempt (s : State) (c : FailCause) (d : AbortDraw) :
    (s.endAttempt c d).stb.length = s.stb.length := by
  unfold State.endAttempt; split <;> simp

/-! ### The counters (43 R114) -/

/-- Saturating, never wraps. -/
theorem clampCount_toNat (c : BitVec 8) (delta : Int) :
    ((clampCount c delta).toNat : Int) = min (max ((c.toNat : Int) + delta) 0) 255 := by
  simp only [clampCount, cntMax, BitVec.toNat_ofNat]
  omega

/-- `errUpdate` without its bus-off: counters and ERR_WARNING. -/
def State.errCounted (s : State) (ev : EvKind) : State :=
  (s.countError ev).setFlagIf
    (decide (s.worstCount < s.ewl.toNat) && decide (s.ewl.toNat ≤ (s.countError ev).worstCount)) .errWarning

theorem State.errUpdate_eq (s : State) (ev : EvKind) (d : AbortDraw) :
    s.errUpdate ev d =
      if (s.errCounted ev).tecForcesBusOff then (s.errCounted ev).enterBusOff d else s.errCounted ev := rfl

@[simp] theorem State.slot_errCounted (s : State) (ev : EvKind) : (s.errCounted ev).slot = s.slot := by
  simp [State.errCounted]

@[simp] theorem State.stb_length_errUpdate (s : State) (ev : EvKind) (d : AbortDraw) :
    (s.errUpdate ev d).stb.length = s.stb.length := by
  rw [State.errUpdate_eq]; split <;> simp [State.enterBusOff, State.errCounted]

/-! ### The receive FIFO (42 R110) -/

/-- The three ways an accepted frame meets the FIFO. -/
theorem State.storeFrame_cases (s : State) (e : RxFrame) :
    (s.rx.length < 8 ∧ (s.storeFrame e).rx = s.rx ++ [e] ∧ ∀ i, (s.storeFrame e).flags.getLsbD i =
      (s.flags.getLsbD i || decide (i = 3) || decide (s.rx.length + 1 = s.afwl.toNat) && decide (i = 5)))
    ∨ (8 ≤ s.rx.length ∧ s.rxPolicy = .discardNew ∧ (s.storeFrame e).rx = s.rx
      ∧ ∀ i, (s.storeFrame e).flags.getLsbD i = (s.flags.getLsbD i || decide (i = 4)))
    ∨ (8 ≤ s.rx.length ∧ s.rxPolicy = .saveNew ∧ (s.storeFrame e).rx = s.rx.tail ++ [e]
      ∧ ∀ i, (s.storeFrame e).flags.getLsbD i = (s.flags.getLsbD i || decide (i = 4) || decide (i = 3))) := by
  by_cases h : s.rx.length < nrx
  · refine .inl ⟨h, ?_, ?_⟩
    · rw [State.storeFrame, if_pos h]; simp
    · intro i
      rw [State.storeFrame, if_pos h, State.flags_setFlagIf, State.flags_setFlag]; rfl
  · refine .inr ?_
    cases hp : s.rxPolicy with
    | discardNew =>
      refine .inl ⟨Nat.le_of_not_lt h, rfl, ?_, ?_⟩
      · rw [State.storeFrame, if_neg h, hp]; simp
      · intro i
        rw [State.storeFrame, if_neg h, hp]; exact s.flags_setFlag _ i
    | saveNew =>
      refine .inr ⟨Nat.le_of_not_lt h, rfl, ?_, ?_⟩
      · rw [State.storeFrame, if_neg h, hp]; simp
      · intro i
        rw [State.storeFrame, if_neg h, hp]
        exact (State.flags_setFlag _ _ i).trans (by rw [show ∀ x, (s.setFlag .rxOverflow).flags.getLsbD x
          = (s.flags.getLsbD x || decide (x = Flag.rxOverflow.bit)) from s.flags_setFlag _]; rfl)

/-! ### Checks on operands -/

theorem afwlLegal_iff (a : BitVec 4) : afwlLegal a = true ↔ 1 ≤ a.toNat ∧ a.toNat ≤ 8 := by
  rw [afwlLegal, Bool.and_eq_true, decide_eq_true_eq, decide_eq_true_eq, nrx]

theorem State.ttcLegal_iff (s : State) (c : TtcConfig) :
    s.ttcLegal c = true ↔ c.slotPtr.toNat ≤ s.stb.length ∧ c.presc ∈ s.params.ttcPrescOk
      ∧ (c.refIde = false → c.refId.toNat < 2 ^ 11) := by
  simp only [State.ttcLegal, State.nstb, Bool.and_eq_true, Bool.or_eq_true, List.contains_iff_mem, and_assoc]
  cases c.refIde <;>
    simp only [Bool.false_eq_true, false_or, forall_const, true_or, and_true, reduceCtorEq, false_imp_iff]
  · exact and_congr decide_eq_true_iff (and_congr Iff.rfl decide_eq_true_iff)
  · exact and_congr decide_eq_true_iff Iff.rfl

/-! ### The comparisons of the TTC timer (44 R130) -/

theorem State.flags_ttcCompare (s : State) (i : Nat) :
    s.ttcCompare.flags.getLsbD i = (s.flags.getLsbD i || decide (i = 12) && s.timer == s.ttcCfg.trigTime
      || decide (i = 13) && s.timer == s.ttcCfg.watchTime) := by
  unfold State.ttcCompare
  by_cases h1 : s.timer = s.ttcCfg.trigTime <;> by_cases h2 : s.timer = s.ttcCfg.watchTime
  all_goals rw [State.flags_setFlagIf]
  all_goals simp only [State.ttcWindowCloses_timer, State.ttcWindowCloses_ttcCfg]
  · rw [if_pos h1, State.ttcTrigger_flags, State.flags_setFlag, beq_iff_eq.mpr h1, beq_iff_eq.mpr h2]
    simp [h2, Flag.bit]
    rfl
  · rw [if_pos h1, State.ttcTrigger_flags, State.flags_setFlag, beq_iff_eq.mpr h1, beq_eq_false_iff_ne.mpr h2]
    simp [h2, Flag.bit]
    rfl
  · rw [if_neg h1, beq_iff_eq.mpr h2, beq_eq_false_iff_ne.mpr h1]
    simp [h2, Flag.bit]
    rfl
  · rw [if_neg h1, beq_eq_false_iff_ne.mpr h1, beq_eq_false_iff_ne.mpr h2]
    simp [h2]

theorem State.released_ttcCompare (s : State) :
    s.ttcCompare.released =
      if s.timer = s.ttcCfg.trigTime then
        match s.ttcCfg.trigType with
        | .immediate | .time => s.released
        | .singleShotTransmit | .transmitStart => true
        | .transmitStop => false
      else s.released
        && !decide (s.ttcCfg.trigType = .singleShotTransmit ∧ s.timer = s.ttcCfg.trigTime + s.ttcCfg.tew + 1) := by
  unfold State.ttcCompare
  simp only [State.setFlagIf_released, State.ttcWindowCloses_timer, State.ttcWindowCloses_ttcCfg]
  by_cases h1 : s.timer = s.ttcCfg.trigTime
  · rw [if_pos h1, if_pos h1]
    unfold State.ttcTrigger
    have : (s.ttcWindowCloses.setFlag .ttcTrigger).ttcCfg = s.ttcCfg := by simp
    rw [this]
    cases h4 : s.ttcCfg.trigType <;> simp [h4]
  · rw [if_neg h1, if_neg h1, State.ttcWindowCloses_released]
    by_cases ha : s.ttcCfg.trigType = .singleShotTransmit <;> cases hb : s.released <;>
      by_cases hc : s.timer = s.ttcCfg.trigTime + s.ttcCfg.tew + 1 <;> simp_all

end Sys2Proof.Machine
end

