-- ==== Sys2Proof/Laws/Schedule.lean ====
section
/-! SUPPORT. The scheduler's choice (spec/41_transmit.md R89) and the slot a load fills (R94), said once. -/

namespace Sys2Proof.Machine

/-- A fold that keeps the better of two ends at an element of the list that no element beats. -/
theorem foldl_keepBest {before : Nat → Nat → Bool} (trans : ∀ a b c, before a b = false → before b c = false →
    before a c = false) (asymm : ∀ a b, before a b = true → before b a = false) (irrefl : ∀ a, before a a = false)
    (l : List Nat) (k : Nat) :
    (l.foldl (fun best c => if before c best then c else best) k) ∈ k :: l ∧
      ∀ j ∈ k :: l, before j (l.foldl (fun best c => if before c best then c else best) k) = false := by
  induction l generalizing k with
  | nil => simp [irrefl]
  | cons a l ih =>
    rw [List.foldl_cons]
    by_cases h : before a k = true
    · rw [if_pos h]
      obtain ⟨hm, hb⟩ := ih a
      refine ⟨List.mem_cons_of_mem _ hm, ?_⟩
      intro j hj
      rcases List.mem_cons.mp hj with rfl | hj
      · exact trans _ a _ (asymm _ _ h) (hb a (by simp))
      · exact hb j hj
    · rw [if_neg h]
      obtain ⟨hm, hb⟩ := ih k
      refine ⟨?_, ?_⟩
      · rcases List.mem_cons.mp hm with hm | hm
        · rw [hm]; simp
        · exact List.mem_cons_of_mem _ (List.mem_cons_of_mem _ hm)
      · intro j hj
        rcases List.mem_cons.mp hj with rfl | hj
        · exact hb _ (by simp)
        · rcases List.mem_cons.mp hj with rfl | hj
          · exact trans _ k _ (by simpa using h) (hb k (by simp))
          · exact hb j (List.mem_cons_of_mem _ hj)

/-- Not going before, said with `≤`: under ID priority by identifier, then by stamp; else by stamp. -/
theorem State.goesBefore_eq_false_iff (s : State) (a b : Nat) :
    s.goesBefore a b = false ↔
      if s.txOpt.stbPrio = true then
        (s.slot b).frame.id.toNat < (s.slot a).frame.id.toNat
          ∨ (s.slot b).frame.id.toNat = (s.slot a).frame.id.toNat ∧ (s.slot b).seq ≤ (s.slot a).seq
      else (s.slot b).seq ≤ (s.slot a).seq := by
  unfold State.goesBefore
  cases s.txOpt.stbPrio
  · simp
  · simp only [if_true, Bool.or_eq_false_iff, Bool.and_eq_false_iff, decide_eq_false_iff_not, beq_eq_false_iff_ne, ne_eq,
      ← BitVec.toNat_inj]
    omega

theorem State.goesBefore_trans (s : State) (a b c : Nat) (h1 : s.goesBefore a b = false)
    (h2 : s.goesBefore b c = false) : s.goesBefore a c = false := by
  rw [State.goesBefore_eq_false_iff] at *
  by_cases hp : s.txOpt.stbPrio = true <;> simp only [hp, if_true, if_false, Bool.false_eq_true] at * <;> omega

theorem State.goesBefore_irrefl (s : State) (a : Nat) : s.goesBefore a a = false := by
  rw [State.goesBefore_eq_false_iff]
  split <;> omega

theorem State.goesBefore_asymm (s : State) (a b : Nat) (h : s.goesBefore a b = true) : s.goesBefore b a = false := by
  rw [State.goesBefore_eq_false_iff]
  have h' : ¬ s.goesBefore a b = false := by simp [h]
  rw [State.goesBefore_eq_false_iff] at h'
  by_cases hp : s.txOpt.stbPrio = true <;> simp only [hp, if_true, if_false, Bool.false_eq_true] at * <;> omega

theorem State.leastOf_eq_some {s : State} {l : List Nat} {k : Nat} (h : s.leastOf l = some k) :
    k ∈ l ∧ ∀ j ∈ l, s.goesBefore j k = false := by
  cases l with
  | nil => cases h
  | cons a l =>
    simp only [State.leastOf, Option.some.injEq] at h
    rw [← h]
    exact foldl_keepBest s.goesBefore_trans s.goesBefore_asymm s.goesBefore_irrefl l a

theorem State.leastOf_eq_none {s : State} {l : List Nat} : s.leastOf l = none ↔ l = [] := by
  cases l <;> simp [State.leastOf]

/-- A slot is pending where it is Queued, its buffer enabled, and TTC does not hold it (10 R40, 44 R124). -/
theorem State.pending_iff (s : State) (k : Nat) : s.pending k = true ↔
    (s.slot k).st = .queued ∧ (if k = 0 then s.ptbEn = true else s.stbEn ≠ .off)
      ∧ ¬ (s.ttcEn = true ∧ k = s.ttcCfg.slotPtr.toNat ∧ s.released = false
        ∧ (s.ttcCfg.trigType = .singleShotTransmit ∨ s.ttcCfg.trigType = .transmitStart
          ∨ s.ttcCfg.trigType = .transmitStop)) := by
  have ht : ∀ y, trigHolds y = true ↔ y = .singleShotTransmit ∨ y = .transmitStart ∨ y = .transmitStop := by
    intro y; cases y <;> decide
  rw [← ht]
  simp only [State.pending, State.held, Bool.and_eq_true, Slot.isQueued_iff, Bool.not_eq_true', and_assoc]
  refine and_congr_right fun _ => and_congr (by split <;> simp) ?_
  rw [← Bool.not_eq_true]
  simp only [Bool.and_eq_true, Bool.not_eq_true', decide_eq_true_eq]
  tauto

/-- A pending slot holds a Queued frame, so it is a slot. -/
theorem State.queued_of_pending {s : State} {k : Nat} (h : s.pending k = true) : (s.slot k).st = .queued := by
  simp only [State.pending, Bool.and_eq_true, Slot.isQueued_iff] at h
  exact h.1.1

theorem State.mem_stbCandidates {s : State} {k : Nat} : k ∈ s.stbCandidates ↔ k ≠ 0 ∧ s.pending k = true := by
  simp only [State.stbCandidates, List.mem_filter, List.mem_map, List.mem_range]
  constructor
  · rintro ⟨⟨j, -, rfl⟩, hp⟩
    exact ⟨by omega, hp⟩
  · rintro ⟨h0, hp⟩
    refine ⟨⟨k - 1, ?_, by omega⟩, hp⟩
    have := State.le_nstb_of_st_ne (s := s) (k := k) (by rw [State.queued_of_pending hp]; decide)
    omega

/-- `select()` (41 R89): a pending slot; the PTB if it is pending; else one that no pending STB slot goes before. -/
theorem State.select_eq_some {s : State} {k : Nat} (h : s.select = some k) :
    s.pending k = true ∧ (s.pending 0 = true → k = 0)
      ∧ (s.pending 0 = false → k ≠ 0 ∧ ∀ j, s.pending j = true → s.goesBefore j k = false) := by
  unfold State.select at h
  by_cases h0 : s.pending 0 = true
  · rw [if_pos h0] at h
    cases h
    exact ⟨h0, fun _ => rfl, fun h => by simp [h0] at h⟩
  · rw [if_neg h0] at h
    obtain ⟨hm, hb⟩ := State.leastOf_eq_some h
    obtain ⟨hk, hp⟩ := State.mem_stbCandidates.mp hm
    refine ⟨hp, fun h => absurd h h0, fun _ => ⟨hk, fun j hj => hb j (State.mem_stbCandidates.mpr ⟨?_, hj⟩)⟩⟩
    rintro rfl
    exact h0 hj

/-- The scheduler finds a frame exactly when some slot is pending. -/
theorem State.select_isSome_iff (s : State) : s.select.isSome = true ↔ ∃ k, s.pending k = true := by
  constructor
  · intro h
    obtain ⟨k, hk⟩ := Option.isSome_iff_exists.mp h
    exact ⟨k, (State.select_eq_some hk).1⟩
  · rintro ⟨k, hk⟩
    unfold State.select
    by_cases h0 : s.pending 0 = true
    · simp [h0]
    · rw [if_neg h0]
      cases h : s.leastOf s.stbCandidates with
      | some _ => rfl
      | none =>
        rw [State.leastOf_eq_none] at h
        have : k ∈ s.stbCandidates := State.mem_stbCandidates.mpr ⟨by rintro rfl; exact h0 hk, hk⟩
        simp [h] at this

/-- A `find?` over the images of a range stops at the first index that satisfies the check. -/
theorem find?_map_range_eq_some {n k : Nat} {f : Nat → Nat} {p : Nat → Bool}
    (h : ((List.range n).map f).find? p = some k) : ∃ i, i < n ∧ k = f i ∧ p k = true ∧ ∀ j, j < i → p (f j) = false := by
  rw [List.find?_eq_some_iff_getElem] at h
  obtain ⟨hp, i, hi, he, hb⟩ := h
  simp only [List.length_map, List.length_range] at hi
  refine ⟨i, hi, by simpa using he.symm, hp, ?_⟩
  intro j hj
  simpa using hb j hj

/-- `stbTarget()` (41 R94): the first Empty STB slot in cyclic order from the fill pointer. -/
theorem State.stbTarget_eq_some {s : State} {k : Nat} (h : s.stbTarget = some k) :
    ∃ i, i < s.stb.length ∧ k = (s.fillPtr + i) % s.stb.length ∧ k < s.stb.length ∧ (s.slot (k + 1)).st = .empty
      ∧ ∀ j, j < i → (s.slot ((s.fillPtr + j) % s.stb.length + 1)).st ≠ .empty := by
  obtain ⟨i, hi, hk, hp, hb⟩ := find?_map_range_eq_some h
  simp only [State.nstb, List.getD_eq_getElem?_getD, Slot.isEmpty_iff, Slot.isEmpty_eq_false_iff] at hi hk hp hb
  refine ⟨i, hi, hk, ?_, ?_, ?_⟩
  · rw [hk]; exact Nat.mod_lt _ (by omega)
  · simpa using hp
  · intro j hj
    simpa using hb j hj

/-- A load finds an STB slot exactly when one is Empty. -/
theorem State.stbTarget_eq_none_iff (s : State) : s.stbTarget = none ↔ ∀ sl ∈ s.stb, sl.st ≠ .empty := by
  simp only [State.stbTarget, State.nstb, List.find?_eq_none, List.mem_map, List.mem_range, forall_exists_index, and_imp,
    List.getD_eq_getElem?_getD, Slot.isEmpty_iff]
  constructor
  · intro h sl hsl
    obtain ⟨j, hj, rfl⟩ := List.mem_iff_getElem.mp hsl
    have hn : 0 < s.stb.length := by omega
    have := h ((s.fillPtr + (j + s.stb.length - s.fillPtr % s.stb.length) % s.stb.length) % s.stb.length)
      ((j + s.stb.length - s.fillPtr % s.stb.length) % s.stb.length) (Nat.mod_lt _ hn) rfl
    have he : (s.fillPtr + (j + s.stb.length - s.fillPtr % s.stb.length) % s.stb.length) % s.stb.length = j := by
      have hf := Nat.mod_lt s.fillPtr hn
      rw [Nat.add_mod, Nat.mod_mod, ← Nat.add_mod]
      rw [show s.fillPtr + (j + s.stb.length - s.fillPtr % s.stb.length)
        = j + s.stb.length + (s.fillPtr - s.fillPtr % s.stb.length) by have := Nat.mod_le s.fillPtr s.stb.length; omega]
      have hd : s.fillPtr - s.fillPtr % s.stb.length = s.stb.length * (s.fillPtr / s.stb.length) := by
        have := Nat.div_add_mod s.fillPtr s.stb.length; omega
      rw [hd, Nat.add_mul_mod_self_left, Nat.add_mod_right, Nat.mod_eq_of_lt hj]
    rw [he] at this
    simpa [hj] using this
  · intro h k i hi he
    have hn : 0 < s.stb.length := by omega
    have hk : k < s.stb.length := by rw [← he]; exact Nat.mod_lt _ hn
    simpa [hk] using h _ (List.getElem_mem hk)

end Sys2Proof.Machine
end

