-- ==== Sys2Proof/Laws/Invariants.lean ====
section
/-! SUPPORT. How the shared operations act on the invariants of spec/10_state.md R46, pointwise. -/

namespace Sys2Proof.Machine

open Sys2Proof.Config

/-- What an update may do to the slots without breaking I1, I7, I8 and I10: frames may go, none comes, a frame that
stays keeps frame and stamp, none begins to be sent, and only a Transmitting slot carries a request. -/
structure SlotsShrink (s t : State) : Prop where
  kept : ∀ k, (t.slot k).st ≠ .empty →
    (s.slot k).st ≠ .empty ∧ (t.slot k).frame = (s.slot k).frame ∧ (t.slot k).seq = (s.slot k).seq
  sending : ∀ k, (t.slot k).st = .transmitting → (s.slot k).st = .transmitting
  requests : ∀ k, (t.slot k).abortReq = true → (t.slot k).st = .transmitting

/-- An update whose slots only shrink keeps the invariants if it keeps those on the other fields. -/
theorem State.Inv.of_shrink {s t : State} (h : s.Inv) (hs : SlotsShrink s t) (hn : t.nextSeq = s.nextSeq)
    (hb : ∀ k, (t.slot k).st = .transmitting → t.mode = .normal ∧ t.busOff = false)
    (hf : t.rx.length ≤ 8) (ho : t.flag .rxOverflow = true → t.rx.length = 8)
    (hp : t.ptbEn = true → t.ptb.st ≠ .empty) (he : t.stbEn ≠ .off → ∃ j, (t.slot (j + 1)).st ≠ .empty) : t.Inv where
  one j k hj hk := h.one j k (hs.sending j hj) (hs.sending k hk)
  busyNormal := hb
  fifo := hf
  overflow := ho
  ptbEn := hp
  stbEn := he
  abort := hs.requests
  stamps j k hj hk := by
    obtain ⟨hj', -, ej⟩ := hs.kept j hj
    obtain ⟨hk', -, ek⟩ := hs.kept k hk
    rw [ej, ek]
    exact h.stamps j k hj' hk'
  below k hk := by
    obtain ⟨hk', -, ek⟩ := hs.kept k hk
    rw [ek, hn]
    exact h.below k hk'
  frames k hk := by
    obtain ⟨hk', ek, -⟩ := hs.kept k hk
    rw [ek]
    exact h.frames k hk'

theorem State.Inv.shrink_self {s t : State} (h : s.Inv) (hs : t.slot = s.slot) : SlotsShrink s t where
  kept k hk := by rw [hs] at *; exact ⟨hk, rfl, rfl⟩
  sending k hk := by rw [hs] at hk; exact hk
  requests k hk := by rw [hs] at *; exact h.abort k hk

/-- An update that leaves every field the invariants speak of keeps them. -/
theorem State.Inv.of_same {s t : State} (h : s.Inv) (hp : t.ptb = s.ptb) (hs : t.stb = s.stb)
    (hn : t.nextSeq = s.nextSeq) (hm : t.mode = s.mode) (hb : t.busOff = s.busOff) (hrx : t.rx = s.rx)
    (hf : t.flag .rxOverflow = s.flag .rxOverflow) (hpe : t.ptbEn = s.ptbEn) (hse : t.stbEn = s.stbEn) : t.Inv := by
  have hslot := State.slot_congr hp hs
  refine h.of_shrink (h.shrink_self hslot) hn ?_ ?_ ?_ ?_ ?_
  · rw [hslot, hm, hb]; exact h.busyNormal
  · rw [hrx]; exact h.fifo
  · rw [hf, hrx]; exact h.overflow
  · rw [hpe, hp]; exact h.ptbEn
  · rw [hse, hslot]; exact h.stbEn

/-- An update that leaves the buffers keeps the invariants if it keeps those on the other fields. -/
theorem State.Inv.of_buffers {s t : State} (h : s.Inv) (hp : t.ptb = s.ptb) (hs : t.stb = s.stb)
    (hn : t.nextSeq = s.nextSeq)
    (hm : s.mode = .normal → s.busOff = false → t.mode = .normal ∧ t.busOff = false) (hf : t.rx.length ≤ 8)
    (ho : t.flag .rxOverflow = true → t.rx.length = 8) (hpe : t.ptbEn = true → s.ptb.st ≠ .empty)
    (hse : t.stbEn ≠ .off → ∃ j, (s.slot (j + 1)).st ≠ .empty) : t.Inv := by
  have hslot := State.slot_congr hp hs
  refine h.of_shrink (h.shrink_self hslot) hn ?_ hf ho (by rw [hp]; exact hpe) (by rw [hslot]; exact hse)
  intro k hk
  rw [hslot] at hk
  exact hm (h.busyNormal k hk).1 (h.busyNormal k hk).2

/-- A load puts a stamped Queued frame into an Empty slot. -/
theorem State.Inv.of_load {s t : State} (h : s.Inv) {k : Nat} {f : TxFrame} (hk : (s.slot k).st = .empty)
    (hw : f.wellFormed = true)
    (hslot : ∀ j, t.slot j = if j = k then { st := .queued, frame := f, seq := s.nextSeq, abortReq := false }
      else s.slot j)
    (hn : t.nextSeq = s.nextSeq + 1) (hm : t.mode = s.mode) (hb : t.busOff = s.busOff) (hrx : t.rx = s.rx)
    (hf : t.flag .rxOverflow = s.flag .rxOverflow) (hpe : t.ptbEn = s.ptbEn) (hse : t.stbEn = s.stbEn) : t.Inv := by
  have hne : ∀ j, j ≠ k → t.slot j = s.slot j := fun j hj => by rw [hslot, if_neg hj]
  have hke : t.slot k = { st := .queued, frame := f, seq := s.nextSeq, abortReq := false } := by
    rw [hslot, if_pos rfl]
  have htr : ∀ j, (t.slot j).st = .transmitting → j ≠ k := by
    rintro j hj rfl
    rw [hke] at hj
    cases hj
  have hkeep : ∀ j, (s.slot j).st ≠ .empty → t.slot j = s.slot j := by
    intro j hj
    refine hne j ?_
    rintro rfl
    exact hj hk
  constructor
  · intro i j hi hj
    exact h.one i j (hne i (htr i hi) ▸ hi) (hne j (htr j hj) ▸ hj)
  · intro j hj
    rw [hm, hb]
    exact h.busyNormal j (hne j (htr j hj) ▸ hj)
  · rw [hrx]; exact h.fifo
  · rw [hf, hrx]; exact h.overflow
  · intro hp
    rw [hpe] at hp
    have := h.ptbEn hp
    rwa [← State.slot_zero, hkeep 0 this]
  · intro he
    rw [hse] at he
    obtain ⟨j, hj⟩ := h.stbEn he
    exact ⟨j, by rw [hkeep _ hj]; exact hj⟩
  · intro j hj
    by_cases hjk : j = k
    · rw [hjk, hke] at hj; cases hj
    · rw [hne j hjk] at *
      exact h.abort j hj
  · intro i j hi hj he
    by_cases hik : i = k
    · by_cases hjk : j = k
      · rw [hik, hjk]
      · rw [hne j hjk] at hj he
        rw [hik, hke] at he
        have := h.below j hj
        simp only at he
        omega
    · rw [hne i hik] at hi he
      by_cases hjk : j = k
      · rw [hjk, hke] at he
        have := h.below i hi
        simp only at he
        omega
      · rw [hne j hjk] at hj he
        exact h.stamps i j hi hj he
  · intro j hj
    rw [hn]
    by_cases hjk : j = k
    · rw [hjk, hke]; exact Nat.lt_succ_self _
    · rw [hne j hjk] at *
      exact Nat.lt_succ_of_lt (h.below j hj)
  · intro j hj
    by_cases hjk : j = k
    · rw [hjk, hke]; exact hw
    · rw [hne j hjk] at *
      exact h.frames j hj

theorem State.Inv.inv1 {s : State} (h : s.Inv) : s.inv1 = true := s.inv1_iff.mpr h.one

/-- The end of an attempt only shrinks the slots, and no slot is Transmitting afterwards. -/
theorem State.SlotsShrink_failAttempt {s : State} (h : s.Inv) {k : Nat} (hk : (s.slot k).st = .transmitting)
    (c : FailCause) (d : AbortDraw) : SlotsShrink s (s.failAttempt k c d) where
  kept j hj := by
    rw [State.slot_failAttempt] at *
    by_cases hc : j = k ∧ k ≤ s.nstb
    · obtain ⟨rfl, hle⟩ := hc
      rw [if_pos ⟨rfl, hle⟩] at *
      refine ⟨by rw [hk]; decide, ?_⟩
      split <;> simp [Slot.emptied, Slot.requeued]
    · rw [if_neg hc] at *
      exact ⟨hj, rfl, rfl⟩
  sending j hj := absurd hj (State.idle_of_failAttempt h.inv1 hk c d j)
  requests j hj := by
    rw [State.slot_failAttempt] at *
    by_cases hc : j = k ∧ k ≤ s.nstb
    · rw [if_pos hc] at *
      split at hj <;> simp [Slot.emptied, Slot.requeued] at hj
    · rw [if_neg hc] at *
      exact h.abort j hj

theorem State.flag_failAttempt_rxOverflow (s : State) (k : Nat) (c : FailCause) (d : AbortDraw) :
    (s.failAttempt k c d).flag .rxOverflow = s.flag .rxOverflow := by
  rw [State.flag, State.flags_failAttempt]
  split
  · rw [BitVec.getLsbD_or, Flag.mask_getLsbD]; simp [State.flag, Flag.bit]
  · rfl

/-- The end of an attempt keeps the invariants, whatever mode and bus-off are set to with it: no slot is Transmitting
afterwards. -/
theorem State.Inv.failAttempt {s : State} (h : s.Inv) {k : Nat} (hk : (s.slot k).st = .transmitting)
    (c : FailCause) (d : AbortDraw) : (s.failAttempt k c d).Inv := by
  have hidle := State.idle_of_failAttempt h.inv1 hk c d
  refine h.of_shrink (State.SlotsShrink_failAttempt h hk c d) (by simp) (fun j hj => absurd hj (hidle j)) ?_ ?_ ?_ ?_
  · rw [State.failAttempt_rx]; exact h.fifo
  · rw [State.flag_failAttempt_rxOverflow, State.failAttempt_rx]; exact h.overflow
  · intro hp
    rw [State.ptbEn_failAttempt, Bool.and_eq_true] at hp
    have h0 : (s.failAttempt k c d).slot 0 = (s.failAttempt k c d).ptb := rfl
    rw [← h0, State.slot_failAttempt]
    by_cases hc : 0 = k ∧ k ≤ s.nstb
    · obtain ⟨rfl, hle⟩ := hc
      have hd : s.drops 0 c d = false := by simpa using hp.2
      rw [if_pos ⟨rfl, hle⟩, hd]
      simp [Slot.requeued]
    · rw [if_neg hc]
      exact h.ptbEn hp.1
  · intro he
    by_contra hne
    simp only [not_exists, not_not] at hne
    have hall := (State.stb_all_empty_iff _).mpr hne
    rw [State.stbEn_failAttempt] at he
    by_cases hd : s.drops k c d = true
    · simp [hd, hall] at he
    · have hss : s.singleShot k = false := by
        simp only [State.drops, Bool.or_eq_true, not_or, Bool.not_eq_true] at hd
        exact hd.1
      simp only [hd, Bool.false_and, hss, Bool.false_eq_true, if_false] at he
      obtain ⟨j, hj⟩ := h.stbEn he
      have := hne j
      rw [State.slot_failAttempt] at this
      split at this
      · simp [Slot.requeued] at this
      · exact hj this

/-- The invariants do not depend on mode and bus-off where no slot is Transmitting. -/
theorem State.Inv.of_idle {s t : State} (h : s.Inv) (hi : ∀ k, (s.slot k).st ≠ .transmitting) (hp : t.ptb = s.ptb)
    (hs : t.stb = s.stb) (hn : t.nextSeq = s.nextSeq) (hrx : t.rx = s.rx)
    (hf : t.flag .rxOverflow = s.flag .rxOverflow) (hpe : t.ptbEn = s.ptbEn) (hse : t.stbEn = s.stbEn) : t.Inv := by
  have hslot := State.slot_congr hp hs
  refine h.of_shrink (h.shrink_self hslot) hn ?_ ?_ ?_ ?_ ?_
  · rw [hslot]; exact fun k hk => absurd hk (hi k)
  · rw [hrx]; exact h.fifo
  · rw [hf, hrx]; exact h.overflow
  · rw [hpe, hp]; exact h.ptbEn
  · rw [hse, hslot]; exact h.stbEn

theorem State.Inv.endAttempt {s : State} (h : s.Inv) (c : FailCause) (d : AbortDraw) : (s.endAttempt c d).Inv := by
  cases hk : s.txSlot with
  | none => rw [State.endAttempt, hk]; exact h
  | some k => rw [State.endAttempt_of_txSlot hk]; exact h.failAttempt (State.txSlot_some hk).1 c d

/-- The bus-off of the state does not matter to the end of an attempt. -/
theorem State.enterBusOff_eq (s : State) (d : AbortDraw) :
    s.enterBusOff d = { s.endAttempt .busOff d with busOff := true } := by
  have hs : ∀ k, ({ s with busOff := true } : State).slot k = s.slot k := fun k => by cases k <;> rfl
  have ht : ({ s with busOff := true } : State).txSlot = s.txSlot := rfl
  unfold State.enterBusOff State.endAttempt
  rw [ht]
  cases s.txSlot with
  | none => rfl
  | some k =>
    simp only
    have hss : ({ s with busOff := true } : State).singleShot k = s.singleShot k := rfl
    have hm : ∀ f, ({ s with busOff := true } : State).modifySlot k f = { s.modifySlot k f with busOff := true } :=
      fun f => by cases k <;> rfl
    have h1 : ∀ u : State, ({ u with busOff := true } : State).enableEnds k = { u.enableEnds k with busOff := true } :=
      fun u => by unfold State.enableEnds; split <;> [rfl; split <;> rfl]
    have h2 : ∀ u : State, ({ u with busOff := true } : State).stbBook = { u.stbBook with busOff := true } :=
      fun u => by unfold State.stbBook; split <;> rfl
    have h3 : ∀ u : State,
        ({ u with busOff := true } : State).ttcSlotEmptied k = { u.ttcSlotEmptied k with busOff := true } :=
      fun u => by unfold State.ttcSlotEmptied; split <;> rfl
    have h4 : ∀ (u : State) (g : Flag),
        ({ u with busOff := true } : State).setFlag g = { u.setFlag g with busOff := true } := fun _ _ => rfl
    have h5 : ∀ u : State, ({ u with busOff := true } : State).ptbEnds k = { u.ptbEnds k with busOff := true } :=
      fun u => by unfold State.ptbEnds; split <;> rfl
    unfold State.failAttempt
    have hh : ({ s with busOff := true } : State).honours k .busOff d = s.honours k .busOff d := by
      simp only [State.honours, hs]
    rw [hss, hh]
    split
    · rw [hm, h1, h2, h3]
    · split
      · rw [hm, h4, h5, h2, h3]
      · rw [hm]

theorem State.Inv.enterBusOff {s : State} (h : s.Inv) (d : AbortDraw) : (s.enterBusOff d).Inv := by
  rw [State.enterBusOff_eq]
  exact (h.endAttempt .busOff d).of_idle (State.idle_of_endAttempt h.inv1 _ _) rfl rfl rfl rfl rfl rfl rfl

/-- After bus-off is entered no slot is Transmitting. -/
theorem State.idle_of_enterBusOff {s : State} (h1 : s.inv1 = true) (d : AbortDraw) (k : Nat) :
    ((s.enterBusOff d).slot k).st ≠ .transmitting := by
  rw [State.enterBusOff_eq]
  cases k with
  | zero => exact State.idle_of_endAttempt h1 .busOff d 0
  | succ j => exact State.idle_of_endAttempt h1 .busOff d (j + 1)

theorem State.Inv.errCounted {s : State} (h : s.Inv) (ev : EvKind) : (s.errCounted ev).Inv := by
  refine h.of_same ?_ ?_ ?_ ?_ ?_ ?_ ?_ ?_ ?_
  all_goals simp [State.errCounted]
  simp only [State.flag, State.flags_setFlagIf]
  simp [Flag.bit]

theorem State.Inv.errUpdate {s : State} (h : s.Inv) (ev : EvKind) (d : AbortDraw) : (s.errUpdate ev d).Inv := by
  rw [State.errUpdate_eq]
  split
  · exact (h.errCounted ev).enterBusOff d
  · exact h.errCounted ev

/-- Storing a frame, or an overflow, keeps I3 and I4. -/
theorem State.Inv.storeFrame {s : State} (h : s.Inv) (e : RxFrame) : (s.storeFrame e).Inv := by
  have hslot := s.slot_storeFrame e
  have hfifo := h.fifo
  refine h.of_shrink (h.shrink_self hslot) (by simp) ?_ ?_ ?_ ?_ ?_
  · rw [hslot]; simpa using h.busyNormal
  · obtain ⟨hl, hr, -⟩ | ⟨hl, -, hr, -⟩ | ⟨hl, -, hr, -⟩ := s.storeFrame_cases e <;> rw [hr]
    · simp; omega
    · exact hfifo
    · simp; omega
  · intro ho
    rw [State.flag] at ho
    obtain ⟨hl, hr, hf⟩ | ⟨hl, -, hr, -⟩ | ⟨hl, -, hr, -⟩ := s.storeFrame_cases e <;> rw [hr]
    · rw [hf] at ho
      have hov := h.overflow (by simpa [State.flag, Flag.bit] using ho)
      omega
    · omega
    · simp; omega
  · simpa using h.ptbEn
  · rw [hslot, State.storeFrame_stbEn]; exact h.stbEn

/-- A tick touches nothing the invariants speak of but the flags, and not RX_OVERFLOW. -/
theorem State.flag_ttcCompare_rxOverflow (s : State) : s.ttcCompare.flag .rxOverflow = s.flag .rxOverflow := by
  unfold State.ttcCompare
  simp only [State.flag, State.flags_setFlagIf]
  split
  · have := s.ttcWindowCloses.flags_setFlag .ttcTrigger Flag.rxOverflow.bit
    simp [Flag.bit] at *
    simpa using this
  · simp [Flag.bit]

/-- The frame of slot `k` goes after a success: the slots only shrink, and none is Transmitting afterwards. -/
theorem State.slot_txCompleted (s : State) (k j : Nat) :
    (s.txCompleted k).slot j = if j = k ∧ k ≤ s.nstb then (s.slot j).emptied else s.slot j := by
  unfold State.txCompleted
  simp [State.slot_modifySlot]

theorem State.Inv.txCompleted {s : State} (h : s.Inv) {k : Nat} (hk : (s.slot k).st = .transmitting) :
    (s.txCompleted k).Inv := by
  have hle : k ≤ s.nstb := State.le_nstb_of_st_ne (by rw [hk]; decide)
  have hidle : ∀ j, ((s.txCompleted k).slot j).st ≠ .transmitting := by
    intro j hj
    rw [State.slot_txCompleted] at hj
    split at hj
    · simp [Slot.emptied] at hj
    · rename_i hne; exact hne ⟨h.one j k hj hk, hle⟩
  refine h.of_shrink ⟨?_, fun j hj => absurd hj (hidle j), ?_⟩ (by simp) (fun j hj => absurd hj (hidle j)) ?_ ?_ ?_ ?_
  · intro j hj
    rw [State.slot_txCompleted] at *
    by_cases hc : j = k ∧ k ≤ s.nstb
    · simp [if_pos hc, Slot.emptied] at hj
    · rw [if_neg hc] at *
      exact ⟨hj, rfl, rfl⟩
  · intro j hj
    rw [State.slot_txCompleted] at *
    by_cases hc : j = k ∧ k ≤ s.nstb
    · simp [if_pos hc, Slot.emptied] at hj
    · rw [if_neg hc] at *
      exact h.abort j hj
  · simpa using h.fifo
  · have : (s.txCompleted k).flag .rxOverflow = s.flag .rxOverflow := by
      unfold State.txCompleted
      simp only [State.flag, State.ttcSlotEmptied_flags, State.stbBook_flags, State.flags_setFlag,
        State.enableEnds_flags, State.modifySlot_flags]
      split <;> simp [Flag.bit]
    rw [this, State.txCompleted_rx]; exact h.overflow
  · intro hp
    have h0 : (s.txCompleted k).slot 0 = (s.txCompleted k).ptb := rfl
    rw [← h0, State.slot_txCompleted]
    have hp' : k ≠ 0 ∧ s.ptbEn = true := by
      simpa [State.txCompleted] using hp
    rw [if_neg (fun h => hp'.1 h.1.symm)]
    exact h.ptbEn hp'.2
  · intro he
    by_contra hne
    simp only [not_exists, not_not] at hne
    have hall := (State.stb_all_empty_iff _).mpr hne
    have : (s.txCompleted k).stbEn = .off := by
      unfold State.txCompleted at hall ⊢
      simp only [State.ttcSlotEmptied_stb, State.stbBook_stb] at hall
      simp only [State.ttcSlotEmptied_stbEn, State.stbBook_stbEn, hall, if_true]
    exact he this

/-- The scheduler's choice goes on the bus: a Queued slot starts while none is Transmitting. -/
theorem State.Inv.started {s : State} (h : s.Inv) {k : Nat} (hk : (s.slot k).st = .queued)
    (hidle : ∀ j, (s.slot j).st ≠ .transmitting) (hm : s.mode = .normal) (hb : s.busOff = false) :
    (s.modifySlot k Slot.started).Inv := by
  have hle : k ≤ s.nstb := State.le_nstb_of_st_ne (by rw [hk]; decide)
  have hslot : ∀ j, (s.modifySlot k Slot.started).slot j = if j = k then (s.slot j).started else s.slot j := by
    intro j; rw [State.slot_modifySlot]; simp [hle]
  have hne : ∀ j, ((s.modifySlot k Slot.started).slot j).st ≠ .empty → (s.slot j).st ≠ .empty := by
    intro j hj
    rw [hslot] at hj
    split at hj
    · rename_i he; rw [he, hk]; decide
    · exact hj
  have hne' : ∀ j, (s.slot j).st ≠ .empty → ((s.modifySlot k Slot.started).slot j).st ≠ .empty := by
    intro j hj
    rw [hslot]
    split
    · simp [Slot.started]
    · exact hj
  have hseq : ∀ j, ((s.modifySlot k Slot.started).slot j).seq = (s.slot j).seq := by
    intro j; rw [hslot]; split <;> rfl
  have hfr : ∀ j, ((s.modifySlot k Slot.started).slot j).frame = (s.slot j).frame := by
    intro j; rw [hslot]; split <;> rfl
  have htr : ∀ j, ((s.modifySlot k Slot.started).slot j).st = .transmitting → j = k := by
    intro j hj
    by_contra hc
    rw [hslot, if_neg hc] at hj
    exact hidle j hj
  constructor
  · intro j i hj hi; rw [htr j hj, htr i hi]
  · intro j _; simpa using ⟨hm, hb⟩
  · simpa using h.fifo
  · simpa [State.flag] using h.overflow
  · intro hp
    exact hne' 0 (h.ptbEn (by simpa using hp))
  · intro he
    obtain ⟨j, hj⟩ := h.stbEn (by simpa using he)
    exact ⟨j, hne' _ hj⟩
  · intro j hj
    rw [hslot] at *
    by_cases hc : j = k
    · rw [if_pos hc]; rfl
    · rw [if_neg hc] at *
      exact h.abort j hj
  · intro j i hj hi
    rw [hseq, hseq]
    exact h.stamps j i (hne j hj) (hne i hi)
  · intro j hj
    rw [hseq, State.modifySlot_nextSeq]
    exact h.below j (hne j hj)
  · intro j hj
    rw [hfr]
    exact h.frames j (hne j hj)

/-- The slots after a TX_ABORT (41 R96). -/
theorem State.slot_abortSlots (s : State) (p q : Bool) (k : Nat) :
    (s.abortSlots p q).slot k = if (if k = 0 then p else q) = true then (s.slot k).abort else s.slot k := by
  cases k with
  | zero => cases p <;> simp [State.abortSlots]
  | succ j =>
    cases q
    · simp [State.abortSlots]
    · simp only [State.abortSlots, State.slot_succ, if_true, Nat.add_one_ne_zero, if_false, List.getElem?_map]
      cases s.stb[j]? with
      | none => rfl
      | some x => rfl

/-- What TX_ABORT leaves of a slot: a frame that stays is not Queued, keeps frame and stamp, and is still sent if it
was. -/
theorem Slot.abort_cases (sl : Slot) :
    (sl.st = .empty ∧ sl.abort = sl) ∨ (sl.st = .queued ∧ sl.abort = { sl with st := .empty })
      ∨ (sl.st = .transmitting ∧ sl.abort = { sl with abortReq := true }) := by
  unfold Slot.abort
  cases h : sl.st <;> simp

/-- Nothing comes and nothing begins to be sent where frames are removed or requests are noted. -/
theorem State.SlotsShrink_abortSlots {s : State} (h : s.Inv) (p q : Bool) : SlotsShrink s (s.abortSlots p q) := by
  have key : ∀ k, (s.abortSlots p q).slot k = s.slot k ∨ (s.abortSlots p q).slot k = (s.slot k).abort := by
    intro k
    rw [State.slot_abortSlots]
    by_cases hc : (if k = 0 then p else q) = true
    · rw [if_pos hc]; exact .inr rfl
    · rw [if_neg hc]; exact .inl rfl
  constructor
  · intro k hk
    rcases key k with he | he
    · rw [he] at hk ⊢; exact ⟨hk, rfl, rfl⟩
    · rw [he] at hk ⊢
      obtain ⟨h1, h2⟩ | ⟨h1, h2⟩ | ⟨h1, h2⟩ := (s.slot k).abort_cases <;> rw [h2] at hk ⊢ <;> simp_all
  · intro k hk
    rcases key k with he | he
    · rwa [he] at hk
    · rw [he] at hk
      obtain ⟨h1, h2⟩ | ⟨h1, h2⟩ | ⟨h1, h2⟩ := (s.slot k).abort_cases <;> rw [h2] at hk <;> simp_all
  · intro k hk
    have ha := h.abort k
    rcases key k with he | he
    · rw [he] at hk ⊢; exact ha hk
    · rw [he] at hk ⊢
      obtain ⟨h1, h2⟩ | ⟨h1, h2⟩ | ⟨h1, h2⟩ := (s.slot k).abort_cases <;> rw [h2] at hk ⊢ <;> simp_all

end Sys2Proof.Machine
end

