-- ==== Sys2Proof/Laws/PerInstr.lean ====
section
/-! SUPPORT. The statement about every command as syntax: the opcode stands in the top byte of the first word, and a
well-formed command has as many words as 30 R61 and R62 give. One lemma per constructor of `Instr`. -/

namespace Sys2Proof.Laws

/-- The opcode stands in `W0[31:24]` (30 R60), and a well-formed command's transaction has the number of words its
opcode and header give (30 R61, R62). -/
def Encoding.Statement (i : Instr) : Prop :=
  field i.w0 24 8 = i.opcode.code ∧ (i.wf = true → (encode i).length = i.opcode.wordCount i.tailWords)

theorem Encoding.cfgEnter : Encoding.Statement .cfgEnter :=
  ⟨Instr.w0_opcode _, fun _ => rfl⟩

theorem Encoding.cfgLeave : Encoding.Statement .cfgLeave :=
  ⟨Instr.w0_opcode _, fun _ => rfl⟩

theorem Encoding.setWorkMode (mode : WorkMode) : Encoding.Statement (.setWorkMode mode) :=
  ⟨Instr.w0_opcode _, fun _ => rfl⟩

theorem Encoding.setTxOptions (opt : TxOptions) : Encoding.Statement (.setTxOptions opt) :=
  ⟨Instr.w0_opcode _, fun _ => rfl⟩

theorem Encoding.btWrite (phase : Phase) (bt : BitTiming) : Encoding.Statement (.btWrite phase bt) :=
  ⟨Instr.w0_opcode _, fun _ => rfl⟩

theorem Encoding.btRead (phase : Phase) : Encoding.Statement (.btRead phase) :=
  ⟨Instr.w0_opcode _, fun _ => rfl⟩

theorem Encoding.filterWrite (index : BitVec 4) (maskType : MaskType) (id mask : BitVec 29) : Encoding.Statement (.filterWrite index maskType id mask) :=
  ⟨Instr.w0_opcode _, fun _ => rfl⟩

theorem Encoding.filterEnable (sel : BitVec 16) (en : Bool) : Encoding.Statement (.filterEnable sel en) :=
  ⟨Instr.w0_opcode _, fun _ => rfl⟩

theorem Encoding.filterRead (index : BitVec 4) : Encoding.Statement (.filterRead index) :=
  ⟨Instr.w0_opcode _, fun _ => rfl⟩

theorem Encoding.reset : Encoding.Statement .reset :=
  ⟨Instr.w0_opcode _, fun _ => rfl⟩

theorem Encoding.txLoad (buf : TxBuffer) (frame : TxFrame) : Encoding.Statement (.txLoad buf frame) := by
  refine ⟨Instr.w0_opcode _, fun h => ?_⟩
  simp only [Instr.wf, TxFrame.lengthOk, beq_iff_eq] at h
  have h1 := frame.dlc.isLt
  have h2 := frame.id.isLt
  have e1 : field frame.d2 0 4 = frame.dlc := by
    apply BitVec.eq_of_toNat_eq
    simp only [field_toNat, TxFrame.d2, append_toNat, bit1_toNat]
    omega
  have e2 : bitAt frame.d2 4 = frame.fdf := by
    simp only [bitAt_eq, TxFrame.d2, append_toNat, bit1_toNat]
    cases frame.fdf <;> cases frame.brs <;> simp <;> omega
  have e3 : bitAt frame.d1 30 = frame.rtr := by
    simp only [bitAt_eq, TxFrame.d1, append_toNat, bit1_toNat]
    cases frame.rtr <;> cases frame.ide <;> simp <;> omega
  simp only [encode, Instr.tailWords, Instr.opcode, Opcode.wordCount, List.getD_cons_zero, List.getD_cons_succ, e1, e2,
    e3, List.length_cons, packData_length, h]
  omega

theorem Encoding.txEnable (tsel : TxSelect) : Encoding.Statement (.txEnable tsel) :=
  ⟨Instr.w0_opcode _, fun _ => rfl⟩

theorem Encoding.txAbort (ptb stb : Bool) : Encoding.Statement (.txAbort ptb stb) :=
  ⟨Instr.w0_opcode _, fun _ => rfl⟩

theorem Encoding.txStatusRead : Encoding.Statement .txStatusRead :=
  ⟨Instr.w0_opcode _, fun _ => rfl⟩

theorem Encoding.rxSetConfig (afwl : BitVec 4) (policy : RxPolicy) : Encoding.Statement (.rxSetConfig afwl policy) :=
  ⟨Instr.w0_opcode _, fun _ => rfl⟩

theorem Encoding.rxPeek : Encoding.Statement .rxPeek :=
  ⟨Instr.w0_opcode _, fun _ => rfl⟩

theorem Encoding.rxRelease : Encoding.Statement .rxRelease :=
  ⟨Instr.w0_opcode _, fun _ => rfl⟩

theorem Encoding.rxStatusRead : Encoding.Statement .rxStatusRead :=
  ⟨Instr.w0_opcode _, fun _ => rfl⟩

theorem Encoding.errSetWarnLimit (ewl : BitVec 8) : Encoding.Statement (.errSetWarnLimit ewl) :=
  ⟨Instr.w0_opcode _, fun _ => rfl⟩

theorem Encoding.errRead : Encoding.Statement .errRead :=
  ⟨Instr.w0_opcode _, fun _ => rfl⟩

theorem Encoding.errForceBusOff : Encoding.Statement .errForceBusOff :=
  ⟨Instr.w0_opcode _, fun _ => rfl⟩

theorem Encoding.errClearCounters : Encoding.Statement .errClearCounters :=
  ⟨Instr.w0_opcode _, fun _ => rfl⟩

theorem Encoding.ttcConfig (cfg : TtcConfig) : Encoding.Statement (.ttcConfig cfg) :=
  ⟨Instr.w0_opcode _, fun _ => rfl⟩

theorem Encoding.ttcEnable (en : Bool) : Encoding.Statement (.ttcEnable en) :=
  ⟨Instr.w0_opcode _, fun _ => rfl⟩

theorem Encoding.ttcRead : Encoding.Statement .ttcRead :=
  ⟨Instr.w0_opcode _, fun _ => rfl⟩

theorem Encoding.statusRead : Encoding.Statement .statusRead :=
  ⟨Instr.w0_opcode _, fun _ => rfl⟩

theorem Encoding.statusClear (mask : BitVec 14) : Encoding.Statement (.statusClear mask) :=
  ⟨Instr.w0_opcode _, fun _ => rfl⟩

theorem Encoding.intEnable (mask : BitVec 14) (en : Bool) : Encoding.Statement (.intEnable mask en) :=
  ⟨Instr.w0_opcode _, fun _ => rfl⟩

end Sys2Proof.Laws
end

