-- ==== Sys2Proof/Laws/Port.lean ====
section
/-! SUPPORT. What a step is made of: the input it takes, the four ways an input has a next state, and the fields no
event touches. -/

namespace Sys2Proof.Machine

/-- Every command has a next state: the block turns none away and none traps (60 R158, R164). -/
theorem exec_next (i : Instr) (s : State) : ∃ t, exec i s = .next t := by cases i <;> exact ⟨_, rfl⟩

/-- A state within the invariants stops no step. -/
theorem stopOf_of_inv {s : State} (h : s.inv = true) : s.stopOf = none := by
  simp only [State.inv, Bool.and_eq_true] at h
  simp [State.stopOf, h.1, h.2]

theorem takeInput_of_inv {s : State} (h : s.inv = true) (i : Input) : takeInput i s = runInput i s := by
  simp only [takeInput, stopOf_of_inv h]

/-- Where an input has a next state, the state is within the invariants and the next state is the input's. -/
theorem takeInput_next {i : Input} {s t : State} (h : takeInput i s = .next t) :
    s.inv = true ∧ runInput i s = .next t := by
  unfold takeInput State.stopOf at h
  by_cases h1 : s.inv1 = false
  · simp [h1] at h
  · by_cases h2 : s.invRest = false
    · simp [h1, h2] at h
    · exact ⟨by simp [State.inv, h1, h2], by simpa [h1, h2] using h⟩

/-- The next input is met by the state itself, but for the model's own fields. -/
theorem nextInput_fields (s : State) : ∃ l d, (nextInput s).2 = { s with inputs := l, draws := d } := by
  unfold nextInput; split <;> exact ⟨_, _, rfl⟩

theorem nextInput_inv (s : State) : (nextInput s).2.inv = s.inv := by
  unfold nextInput; split <;> rfl

/-- A step from a state within the invariants is what the next input does. -/
theorem step_of_inv {s : State} (h : s.inv = true) : step s = runInput (nextInput s).1 (nextInput s).2 :=
  takeInput_of_inv ((nextInput_inv s).trans h) _

/-- The four ways an input has a next state: a transaction that is no command's, a command, an event that can occur, a
hardware reset. -/
theorem runInput_next {i : Input} {s t : State} (h : runInput i s = .next t) :
    (∃ w0 rest e, i = .command w0 rest ∧ decode (w0 :: rest) = .error e ∧ t = s.fail .illegal)
    ∨ (∃ w0 rest c, i = .command w0 rest ∧ decode (w0 :: rest) = .ok c ∧ exec c s = .next t)
    ∨ (∃ e, i = .event e ∧ eventCanOccur e s = true ∧ t = eventEffect e s)
    ∨ (i = .hardwareReset ∧ t = s.resetBlock) := by
  cases i with
  | command w0 rest =>
    simp only [runInput, runTransaction] at h
    cases hd : decode (w0 :: rest) with
    | ok c => rw [hd] at h; exact .inr (.inl ⟨w0, rest, c, rfl, hd, h⟩)
    | error e => rw [hd] at h; cases h; exact .inl ⟨w0, rest, e, rfl, hd, rfl⟩
  | event e =>
    simp only [runInput, runEvent] at h
    split at h
    · rename_i hc; cases h; exact .inr (.inr (.inl ⟨e, rfl, hc, rfl⟩))
    · cases h
  | hardwareReset => cases h; exact .inr (.inr (.inr ⟨rfl, rfl⟩))
  | hostBreach b => cases h

theorem runInputs_append (a b : List Input) (s : State) : runInputs (a ++ b) s = (runInputs a s).bind (runInputs b) := by
  induction a generalizing s with
  | nil => rfl
  | cons i a ih =>
    simp only [List.cons_append, runInputs]
    rcases takeInput i s with u | _ | _
    · exact ih u
    · rfl
    · rfl

/-! ### The fields no event touches -/

theorem eventEffect_resp (e : Event) (s : State) : (eventEffect e s).resp = s.resp := by
  cases e <;> simp only [eventEffect, evTxStart, evTxSuccess, evTxArbLost, evTxError, evRxFrame, evRxError, evBusOff,
    evBusOffRecover, evClkTick]
  all_goals (repeat' split)
  all_goals simp

theorem eventEffect_mode (e : Event) (s : State) : (eventEffect e s).mode = s.mode := by
  cases e <;> simp only [eventEffect, evTxStart, evTxSuccess, evTxArbLost, evTxError, evRxFrame, evRxError, evBusOff,
    evBusOffRecover, evClkTick]
  all_goals (repeat' split)
  all_goals simp

theorem eventEffect_workMode (e : Event) (s : State) : (eventEffect e s).workMode = s.workMode := by
  cases e <;> simp only [eventEffect, evTxStart, evTxSuccess, evTxArbLost, evTxError, evRxFrame, evRxError, evBusOff,
    evBusOffRecover, evClkTick]
  all_goals (repeat' split)
  all_goals simp

theorem eventEffect_btSlow (e : Event) (s : State) : (eventEffect e s).btSlow = s.btSlow := by
  cases e <;> simp only [eventEffect, evTxStart, evTxSuccess, evTxArbLost, evTxError, evRxFrame, evRxError, evBusOff,
    evBusOffRecover, evClkTick]
  all_goals (repeat' split)
  all_goals simp

theorem eventEffect_btFast (e : Event) (s : State) : (eventEffect e s).btFast = s.btFast := by
  cases e <;> simp only [eventEffect, evTxStart, evTxSuccess, evTxArbLost, evTxError, evRxFrame, evRxError, evBusOff,
    evBusOffRecover, evClkTick]
  all_goals (repeat' split)
  all_goals simp

theorem eventEffect_filt (e : Event) (s : State) : (eventEffect e s).filt = s.filt := by
  cases e <;> simp only [eventEffect, evTxStart, evTxSuccess, evTxArbLost, evTxError, evRxFrame, evRxError, evBusOff,
    evBusOffRecover, evClkTick]
  all_goals (repeat' split)
  all_goals simp

theorem eventEffect_txOpt (e : Event) (s : State) : (eventEffect e s).txOpt = s.txOpt := by
  cases e <;> simp only [eventEffect, evTxStart, evTxSuccess, evTxArbLost, evTxError, evRxFrame, evRxError, evBusOff,
    evBusOffRecover, evClkTick]
  all_goals (repeat' split)
  all_goals simp

theorem eventEffect_afwl (e : Event) (s : State) : (eventEffect e s).afwl = s.afwl := by
  cases e <;> simp only [eventEffect, evTxStart, evTxSuccess, evTxArbLost, evTxError, evRxFrame, evRxError, evBusOff,
    evBusOffRecover, evClkTick]
  all_goals (repeat' split)
  all_goals simp

theorem eventEffect_rxPolicy (e : Event) (s : State) : (eventEffect e s).rxPolicy = s.rxPolicy := by
  cases e <;> simp only [eventEffect, evTxStart, evTxSuccess, evTxArbLost, evTxError, evRxFrame, evRxError, evBusOff,
    evBusOffRecover, evClkTick]
  all_goals (repeat' split)
  all_goals simp

theorem eventEffect_ewl (e : Event) (s : State) : (eventEffect e s).ewl = s.ewl := by
  cases e <;> simp only [eventEffect, evTxStart, evTxSuccess, evTxArbLost, evTxError, evRxFrame, evRxError, evBusOff,
    evBusOffRecover, evClkTick]
  all_goals (repeat' split)
  all_goals simp

theorem eventEffect_ttcCfg (e : Event) (s : State) : (eventEffect e s).ttcCfg = s.ttcCfg := by
  cases e <;> simp only [eventEffect, evTxStart, evTxSuccess, evTxArbLost, evTxError, evRxFrame, evRxError, evBusOff,
    evBusOffRecover, evClkTick]
  all_goals (repeat' split)
  all_goals simp

theorem eventEffect_ie (e : Event) (s : State) : (eventEffect e s).ie = s.ie := by
  cases e <;> simp only [eventEffect, evTxStart, evTxSuccess, evTxArbLost, evTxError, evRxFrame, evRxError, evBusOff,
    evBusOffRecover, evClkTick]
  all_goals (repeat' split)
  all_goals simp

theorem eventEffect_fillPtr (e : Event) (s : State) : (eventEffect e s).fillPtr = s.fillPtr := by
  cases e <;> simp only [eventEffect, evTxStart, evTxSuccess, evTxArbLost, evTxError, evRxFrame, evRxError, evBusOff,
    evBusOffRecover, evClkTick]
  all_goals (repeat' split)
  all_goals simp

theorem eventEffect_nextSeq (e : Event) (s : State) : (eventEffect e s).nextSeq = s.nextSeq := by
  cases e <;> simp only [eventEffect, evTxStart, evTxSuccess, evTxArbLost, evTxError, evRxFrame, evRxError, evBusOff,
    evBusOffRecover, evClkTick]
  all_goals (repeat' split)
  all_goals simp

theorem eventEffect_ttcEn (e : Event) (s : State) : (eventEffect e s).ttcEn = s.ttcEn := by
  cases e <;> simp only [eventEffect, evTxStart, evTxSuccess, evTxArbLost, evTxError, evRxFrame, evRxError, evBusOff,
    evBusOffRecover, evClkTick]
  all_goals (repeat' split)
  all_goals simp

theorem eventEffect_params (e : Event) (s : State) : (eventEffect e s).params = s.params := by
  cases e <;> simp only [eventEffect, evTxStart, evTxSuccess, evTxArbLost, evTxError, evRxFrame, evRxError, evBusOff,
    evBusOffRecover, evClkTick]
  all_goals (repeat' split)
  all_goals simp

theorem eventEffect_inputs (e : Event) (s : State) : (eventEffect e s).inputs = s.inputs := by
  cases e <;> simp only [eventEffect, evTxStart, evTxSuccess, evTxArbLost, evTxError, evRxFrame, evRxError, evBusOff,
    evBusOffRecover, evClkTick]
  all_goals (repeat' split)
  all_goals simp

theorem eventEffect_draws (e : Event) (s : State) : (eventEffect e s).draws = s.draws := by
  cases e <;> simp only [eventEffect, evTxStart, evTxSuccess, evTxArbLost, evTxError, evRxFrame, evRxError, evBusOff,
    evBusOffRecover, evClkTick]
  all_goals (repeat' split)
  all_goals simp

theorem stb_length_eventEffect (e : Event) (s : State) : (eventEffect e s).stb.length = s.stb.length := by
  cases e <;> simp only [eventEffect, evTxStart, evTxSuccess, evTxArbLost, evTxError, evRxFrame, evRxError, evBusOff,
    evBusOffRecover, evClkTick]
  case txStart => split <;> simp; split <;> simp
  case txSuccess =>
    split
    · simp only [State.stb_length_errUpdate, State.txCompleted]
      simp
      split <;> simp
    · rfl
  all_goals (repeat' split)
  all_goals simp [State.enterBusOff]

end Sys2Proof.Machine
end

