-- ==== Sys2Proof/Machine/Assembler.lean ====
section
/-! DEFINITION. The assembler syntax of spec/30_encoding.md R74: one line of text to the words of a transaction, or to
an event of a test schedule. The field positions are written out again from R63 to R70, apart from the encoder's, so
that the two can be held against each other. -/

namespace Sys2Proof.Machine

/-- The value of a `field=value` pair (30 R74). -/
inductive AsmValue where
  | num (n : Nat)
  | name (s : List Char)
  | bytes (l : List Nat)
  deriving DecidableEq, Repr

/-- A blank character. -/
def isBlank (c : Char) : Bool := c == ' ' || c == '\t'

/-- A text without the blanks at its ends. -/
def trimBlanks (l : List Char) : List Char := ((l.dropWhile isBlank).reverse.dropWhile isBlank).reverse

/-- A text without its comment (30 R74: comments begin with `;`). -/
def dropComment (l : List Char) : List Char := l.takeWhile fun c => c != ';'

/-- Split a text at the commas outside square brackets: `cur` is the piece being read, in reverse. -/
def splitAtCommas : List Char → Bool → List Char → List (List Char)
  | [], _, cur => [cur.reverse]
  | c :: cs, inside, cur =>
    if c == ',' && !inside then cur.reverse :: splitAtCommas cs false []
    else splitAtCommas cs ((inside || c == '[') && c != ']') (c :: cur)

/-- The value of a digit in base `base`. -/
def digitOf (base : Nat) (c : Char) : Option Nat :=
  let v :=
    if '0' ≤ c && c ≤ '9' then c.toNat - '0'.toNat
    else if 'a' ≤ c && c ≤ 'f' then c.toNat - 'a'.toNat + 10
    else if 'A' ≤ c && c ≤ 'F' then c.toNat - 'A'.toNat + 10
    else base
  if v < base then some v else none

/-- A non-empty run of digits as a number. -/
def digitsOf (base : Nat) (l : List Char) : Option Nat :=
  if l.isEmpty then none else l.foldlM (fun acc c => (digitOf base c).map (acc * base + ·)) 0

/-- A decimal or `0x` hexadecimal number (30 R74). -/
def numberOf : List Char → Option Nat
  | '0' :: 'x' :: l => digitsOf 16 l
  | l => digitsOf 10 l

/-- A list of byte values in square brackets, the opening one already read (30 R74). -/
def bytesOf (l : List Char) : Option (List Nat) :=
  if trimBlanks l = [']'] then some []
  else if l.getLast? = some ']' then (splitAtCommas l.dropLast false []).mapM fun p => numberOf (trimBlanks p)
  else none

/-- A value: a number, a list of bytes or a name (30 R74). -/
def valueOf : List Char → Option AsmValue
  | [] => none
  | '[' :: l => (bytesOf l).map .bytes
  | c :: l => if c.isDigit then (numberOf (c :: l)).map .num else some (.name (c :: l))

/-- A `field=value` pair (30 R74). -/
def pairOf (l : List Char) : Option (List Char × AsmValue) :=
  match l.dropWhile fun c => c != '=' with
  | _ :: v => (valueOf (trimBlanks v)).map fun x => (trimBlanks (l.takeWhile fun c => c != '='), x)
  | [] => none

/-- A line: a mnemonic and its pairs, in any order, no field twice (30 R74, log 16). -/
def lineOf (text : List Char) : Option (List Char × List (List Char × AsmValue)) :=
  let l := trimBlanks (dropComment text)
  let mnemonic := l.takeWhile fun c => !isBlank c
  let rest := trimBlanks (l.dropWhile fun c => !isBlank c)
  if mnemonic.isEmpty then none
  else if rest.isEmpty then some (mnemonic, [])
  else
    match (splitAtCommas rest false []).mapM fun p => pairOf (trimBlanks p) with
    | some ps => if (ps.map Prod.fst).Nodup then some (mnemonic, ps) else none
    | none => none

/-- One field of a command: its name, its word, its lowest bit, its width, and the names of its values (30 R70). -/
structure AsmField where
  name : String
  word : Nat
  lo : Nat
  len : Nat
  names : List (String × Nat)
  deriving DecidableEq, Repr

/-- The opcode's mnemonic (30 R70). -/
def mnemonicOf : Opcode → String
  | .cfgEnter => "CFG_ENTER"
  | .cfgLeave => "CFG_LEAVE"
  | .setWorkMode => "SET_WORK_MODE"
  | .setTxOptions => "SET_TX_OPTIONS"
  | .btWrite => "BT_WRITE"
  | .btRead => "BT_READ"
  | .filterWrite => "FILTER_WRITE"
  | .filterEnable => "FILTER_ENABLE"
  | .filterRead => "FILTER_READ"
  | .reset => "RESET"
  | .txLoad => "TX_LOAD"
  | .txEnable => "TX_ENABLE"
  | .txAbort => "TX_ABORT"
  | .txStatusRead => "TX_STATUS_READ"
  | .rxSetConfig => "RX_SET_CONFIG"
  | .rxPeek => "RX_PEEK"
  | .rxRelease => "RX_RELEASE"
  | .rxStatusRead => "RX_STATUS_READ"
  | .errSetWarnLimit => "ERR_SET_WARN_LIMIT"
  | .errRead => "ERR_READ"
  | .errForceBusOff => "ERR_FORCE_BUSOFF"
  | .errClearCounters => "ERR_CLEAR_COUNTERS"
  | .ttcConfig => "TTC_CONFIG"
  | .ttcEnable => "TTC_ENABLE"
  | .ttcRead => "TTC_READ"
  | .statusRead => "STATUS_READ"
  | .statusClear => "STATUS_CLEAR"
  | .intEnable => "INT_ENABLE"

/-- The phase field of BT_WRITE and BT_READ (30 R70). -/
def phaseField : AsmField := ⟨"phase", 0, 0, 1, [("Slow", 0), ("Fast", 1)]⟩

/-- The fields of a command, less the data bytes of TX_LOAD (30 R63 to R67, R70). -/
def asmFields : Opcode → List AsmField
  | .setWorkMode => [⟨"mode", 0, 0, 2, [("Normal", 0), ("Test", 1)]⟩]
  | .setTxOptions => [⟨"ptbSS", 0, 0, 1, []⟩, ⟨"stbSS", 0, 1, 1, []⟩, ⟨"stbPrio", 0, 2, 1, []⟩]
  | .btWrite =>
    [phaseField, ⟨"seg1", 1, 0, 8, []⟩, ⟨"seg2", 1, 8, 8, []⟩, ⟨"sjw", 1, 16, 8, []⟩, ⟨"prescaler", 1, 24, 8, []⟩]
  | .btRead => [phaseField]
  | .filterWrite =>
    [⟨"index", 0, 0, 4, []⟩, ⟨"maskType", 0, 4, 2, [("StdOnly", 0), ("ExtOnly", 1), ("Both", 2)]⟩, ⟨"id", 1, 0, 29, []⟩,
      ⟨"mask", 2, 0, 29, []⟩]
  | .filterEnable => [⟨"sel", 0, 0, 16, []⟩, ⟨"en", 0, 16, 1, []⟩]
  | .filterRead => [⟨"index", 0, 0, 4, []⟩]
  | .txLoad =>
    [⟨"buf", 0, 0, 1, [("PTB", 0), ("STB", 1)]⟩, ⟨"id", 1, 0, 29, []⟩, ⟨"ide", 1, 29, 1, []⟩, ⟨"rtr", 1, 30, 1, []⟩,
      ⟨"dlc", 2, 0, 4, []⟩, ⟨"fdf", 2, 4, 1, []⟩, ⟨"brs", 2, 5, 1, []⟩]
  | .txEnable => [⟨"tsel", 0, 0, 2, [("PTB", 0), ("STB_ONE", 1), ("STB_ALL", 2)]⟩]
  | .txAbort => [⟨"ptb", 0, 0, 1, []⟩, ⟨"stb", 0, 1, 1, []⟩]
  | .rxSetConfig => [⟨"afwl", 0, 0, 4, []⟩, ⟨"policy", 0, 4, 1, [("DiscardNew", 0), ("SaveNew", 1)]⟩]
  | .errSetWarnLimit => [⟨"ewl", 0, 0, 8, []⟩]
  | .ttcConfig =>
    [⟨"trigType", 0, 0, 3, [("Immediate", 0), ("Time", 1), ("SingleShotTransmit", 2), ("TransmitStart", 3),
        ("TransmitStop", 4)]⟩, ⟨"slotPtr", 0, 3, 8, []⟩, ⟨"refId", 1, 0, 29, []⟩, ⟨"refIde", 1, 29, 1, []⟩]
    ++ [⟨"trigTime", 2, 0, 16, []⟩, ⟨"watchTime", 2, 16, 16, []⟩, ⟨"presc", 3, 0, 16, []⟩, ⟨"tew", 3, 16, 16, []⟩]
  | .ttcEnable => [⟨"en", 0, 0, 1, []⟩]
  | .statusClear => [⟨"mask", 0, 0, 14, []⟩]
  | .intEnable => [⟨"mask", 0, 0, 14, []⟩, ⟨"en", 0, 16, 1, []⟩]
  | .cfgEnter | .cfgLeave | .reset | .txStatusRead | .rxPeek | .rxRelease | .rxStatusRead | .errRead | .errForceBusOff
  | .errClearCounters | .ttcRead | .statusRead => []

/-- A pair list's value of a name. -/
def lookupValue (ps : List (List Char × AsmValue)) (name : String) : Option AsmValue :=
  (ps.find? fun p => p.1 == name.toList).map Prod.snd

/-- A field's number: 0 where it is left out, a named value by its name, none where it does not fit (30 R74). -/
def fieldNumber (ps : List (List Char × AsmValue)) (f : AsmField) : Option Nat :=
  match lookupValue ps f.name with
  | none => some 0
  | some (.num n) => if n < 2 ^ f.len then some n else none
  | some (.name s) => (f.names.find? fun x => x.1.toList == s).map Prod.snd
  | some (.bytes _) => none

/-- Word `k` of a command's fields. -/
def fieldWord (fs : List AsmField) (ps : List (List Char × AsmValue)) (k : Nat) : Option Nat :=
  (fs.filter fun f => f.word == k).foldlM (fun acc f => (fieldNumber ps f).map fun n => acc + n * 2 ^ f.lo) 0

/-- The data bytes of a line, each below 256; none are written where the field is left out (30 R74). -/
def dataOf (ps : List (List Char × AsmValue)) : Option (List Byte) :=
  match lookupValue ps "data" with
  | none => some []
  | some (.bytes l) => if l.all fun b => decide (b < 256) then some (l.map (BitVec.ofNat 8)) else none
  | some (.num _) => none
  | some (.name _) => none

/-- Every pair names a field of the command; `data` is one of TX_LOAD's only. -/
def namesKnown (o : Opcode) (ps : List (List Char × AsmValue)) : Bool :=
  ps.all fun p => (asmFields o).any (fun f => f.name.toList == p.1) || (o == .txLoad && p.1 == "data".toList)

/-- The words of a command line (30 R74). A TX_LOAD gets as many data words as its header asks for; data that does not
fit in its length is no line (log 16). -/
def assembleCommand (o : Opcode) (ps : List (List Char × AsmValue)) : Option (List Word) := do
  let f0 ← fieldWord (asmFields o) ps 0
  let f1 ← fieldWord (asmFields o) ps 1
  let f2 ← fieldWord (asmFields o) ps 2
  let f3 ← fieldWord (asmFields o) ps 3
  let data ← dataOf ps
  let head : List Word := [f0 + o.code.toNat * 2 ^ 24, f1, f2].map (BitVec.ofNat 32)
  let d2 : Word := head.getD 2 0
  let len := dataLen (field d2 0 4) (bitAt d2 4) (bitAt (head.getD 1 0) 30)
  let count := o.wordCount head.tail
  if namesKnown o ps && (o != .txLoad || decide (data.length ≤ len)) then
    if o = .txLoad then return head ++ (List.range (count - 3)).map (packWord data)
    else return (head ++ [BitVec.ofNat 32 f3]).take count
  else none

/-- The words of one line of assembler text, if it is a command line (30 R74). -/
def assemble (text : String) : Option (List Word) :=
  match lineOf text.toList with
  | none => none
  | some (m, ps) =>
    match Opcode.all.find? fun o => (mnemonicOf o).toList == m with
    | none => none
    | some o => assembleCommand o ps

/-- The names of the error types (00 R19). -/
def errorNames : List (String × Nat) :=
  [("None", 0), ("Bit", 1), ("Form", 2), ("Stuff", 3), ("Ack", 4), ("Crc", 5), ("Other", 6)]

/-- The fields of an event line (30 R74, the event rules of 41 to 43). `honour` is the model's name for the
draw of 41 R91 (log 16). -/
def eventFields : List AsmField :=
  [⟨"pos", 0, 0, 5, []⟩, ⟨"t", 0, 0, 3, errorNames⟩, ⟨"et", 0, 0, 3, errorNames⟩, ⟨"honour", 0, 0, 1, []⟩,
    ⟨"id", 0, 0, 29, []⟩, ⟨"ide", 0, 0, 1, []⟩, ⟨"rtr", 0, 0, 1, []⟩, ⟨"fdf", 0, 0, 1, []⟩,
    ⟨"brs", 0, 0, 1, []⟩, ⟨"dlc", 0, 0, 4, []⟩]

/-- An event line's field. -/
def eventNumber (ps : List (List Char × AsmValue)) (name : String) : Option Nat :=
  match eventFields.find? fun f => f.name == name with
  | some f => fieldNumber ps f
  | none => none

/-- The frame of an EV_RX_FRAME line; data bytes left out are 0 (30 R74). -/
def eventFrame (ps : List (List Char × AsmValue)) : Option TxFrame := do
  let id ← eventNumber ps "id"
  let ide ← eventNumber ps "ide"
  let rtr ← eventNumber ps "rtr"
  let fdf ← eventNumber ps "fdf"
  let brs ← eventNumber ps "brs"
  let dlc ← eventNumber ps "dlc"
  let data ← dataOf ps
  let len := dataLen (BitVec.ofNat 4 dlc) (fdf == 1) (rtr == 1)
  if data.length ≤ len then
    return ⟨BitVec.ofNat 29 id, ide == 1, rtr == 1, fdf == 1, brs == 1, BitVec.ofNat 4 dlc,
      (List.range len).map fun k => data.getD k 0⟩
  else none

/-- The names a kind of event line may use. -/
def eventNames : List Char → Option (List String)
  | m =>
    ([("EV_TX_START", []), ("EV_TX_SUCCESS", []), ("EV_TX_ARB_LOST", ["pos", "honour"]),
      ("EV_TX_ERROR", ["t", "honour"]),
      ("EV_RX_FRAME", ["id", "ide", "rtr", "fdf", "brs", "dlc", "data", "et", "honour"]),
      ("EV_RX_ERROR", ["t", "honour"]), ("EV_BUS_OFF", ["honour"]), ("EV_BUS_OFF_RECOVER", []),
      ("EV_CLK_TICK", [])].find? fun p => p.1.toList == m).map Prod.snd

/-- The event of one line of a test schedule (30 R74). -/
def assembleEvent (text : String) : Option Event := do
  let (m, ps) ← lineOf text.toList
  let names ← eventNames m
  let honour ← eventNumber ps "honour"
  let pos ← eventNumber ps "pos"
  let t ← (eventNumber ps "t").bind fun n => ErrorType.ofCode (BitVec.ofNat 3 n)
  let et ← (eventNumber ps "et").bind fun n => ErrorType.ofCode (BitVec.ofNat 3 n)
  let fr ← eventFrame ps
  let d : AbortDraw := ⟨honour == 1⟩
  if ps.all fun p => names.any fun n => n.toList == p.1 then
    if m = "EV_TX_START".toList then return .txStart
    else if m = "EV_TX_SUCCESS".toList then return .txSuccess
    else if m = "EV_TX_ARB_LOST".toList then return .txArbLost (BitVec.ofNat 5 pos) d
    else if m = "EV_TX_ERROR".toList then return .txError t d
    else if m = "EV_RX_FRAME".toList then return .rxFrame fr et d
    else if m = "EV_RX_ERROR".toList then return .rxError t d
    else if m = "EV_BUS_OFF".toList then return .busOff d
    else if m = "EV_BUS_OFF_RECOVER".toList then return .busOffRecover
    else return .clkTick
  else none

end Sys2Proof.Machine
end

