-- ==== Sys2Proof/Tests/Slice0.lean ====
section
/-! SUPPORT. Tests. Expected values come from spec/95_test_vectors.md (the vector is named), from spec/30_encoding.md
R76, or by hand from the rule named; the words are written out from the encoding tables. -/

namespace Sys2Proof.Tests

open Sys2Proof.Machine

/-! ### States -/

/-- S0 of spec/95 section 1, its `ttcCfg` a legal draw. -/
def s0 : State :=
  { State.resetWith defaultParams 3 16 default with
    mode := .normal, btSlow := ⟨16, 4, 1, 4⟩, afwl := 6, ewl := 96, ie := 1
    filt := ⟨0, 0, .both, true⟩ :: List.replicate 15 ⟨0, 0, .both, false⟩, nextSeq := 1 }

/-- S0 in configuration state. -/
def s0Config : State := { s0 with mode := .config }

/-- A standard data frame without data. -/
def fr (id : BitVec 29) : TxFrame := ⟨id, false, false, false, false, 0, []⟩

/-- A received frame without fault and time. -/
def rxf (id : BitVec 29) : RxFrame := ⟨fr id, .none, 0⟩

/-- The PTB holding frame 5, Queued and enabled. -/
def ptbQueued : State := { s0 with ptb := ⟨.queued, fr 5, 1, false⟩, ptbEn := true, nextSeq := 2 }

/-- The PTB holding frame 5, Transmitting. -/
def ptbSending : State := { ptbQueued with ptb := ⟨.transmitting, fr 5, 1, false⟩ }

/-- The PTB Transmitting with an abort request. -/
def ptbAborting : State := { ptbQueued with ptb := ⟨.transmitting, fr 5, 1, true⟩ }

/-- The PTB's frame pending but for TTC, which designates slot 0 under a trigger type and has not released it. -/
def ptbHeld (y : TrigType) : State :=
  { ptbQueued with ttcEn := true, ttcCfg := ⟨0x7FF, false, 1, 0, y, 3, 10, 0⟩ }

/-- Three STB frames 1, 2, 3 queued, the STB enabled for all of them. -/
def stbQueued : State :=
  { s0 with
    stb := [⟨.queued, fr 1, 1, false⟩, ⟨.queued, fr 2, 2, false⟩, ⟨.queued, fr 3, 3, false⟩]
    stbEn := .all, nextSeq := 4 }

/-- The same with slot 1 Transmitting (T11 of spec/95). -/
def stbSending : State :=
  { stbQueued with stb := [⟨.transmitting, fr 1, 1, false⟩, ⟨.queued, fr 2, 2, false⟩, ⟨.queued, fr 3, 3, false⟩] }

/-- Eight frames received, RX_RECEIVED, RX_ALMOST_FULL and RX_OVERFLOW latched (Q9 of spec/95). -/
def full : State :=
  { s0 with
    rx := [rxf 0x10, rxf 0x11, rxf 0x12, rxf 0x13, rxf 0x14, rxf 0x15, rxf 0x16, rxf 0x17], flags := 0x0038 }

/-- One frame received. -/
def oneFrame : State := { s0 with rx := [rxf 0x10], flags := 0x0008 }

/-- A node in bus-off. -/
def off : State := { s0 with busOff := true, tecCount := 200 }

/-- Time configuration of P4: reference 0x7FF, trigger at 5, watch at 100, prescaler 1. -/
def cfgP4 : TtcConfig := ⟨0x7FF, false, 1, 0, .time, 0, 5, 100⟩

/-- TTC on under P4, just after a reference. -/
def ttcOn : State := { s0 with ttcCfg := cfgP4, ttcEn := true }

/-- The state after a step that has one. -/
def next? : Result → Option State
  | .next t => some t
  | .fault _ => none
  | .refused _ => none

/-- A transaction's state after. -/
def after (ws : List Word) (s : State) : Option State := next? (takeInput (commandInput ws) s)

/-- A transaction's response. -/
def reply (ws : List Word) (s : State) : Option Response := (after ws s).map State.resp

/-- An event's state after. -/
def happens (e : Event) (s : State) : Option State := next? (takeInput (.event e) s)

/-- The bus engine retries. -/
def retry : AbortDraw := ⟨false⟩

/-- The bus engine honours an abort. -/
def honour : AbortDraw := ⟨true⟩

/-! ### Well-formedness: the one check refuses an ill-formed term (30 R64) -/

theorem test_wf_refuses_missing_data :
    (Instr.txLoad .ptb ⟨0x123, false, false, false, false, 2, [0xAA]⟩).wf = false := by decide

theorem test_wf_refuses_remote_frame_with_data :
    (Instr.txLoad .stb ⟨0x123, false, true, false, false, 2, [0xAA, 0xBB]⟩).wf = false := by decide

/-! ### Decoding: every constructor from a word written out from 30 R70 -/

theorem test_decode_cfgEnter : decode [0x01000000] = .ok .cfgEnter := by decide
theorem test_decode_cfgLeave : decode [0x02000000] = .ok .cfgLeave := by decide
theorem test_decode_setWorkMode : decode [0x03000001] = .ok (.setWorkMode .test) := by decide
theorem test_decode_setTxOptions : decode [0x04000005] = .ok (.setTxOptions ⟨true, false, true⟩) := by decide
theorem test_decode_btWrite : decode [0x05000001, 0x02010203] = .ok (.btWrite .fast ⟨3, 2, 1, 2⟩) := by decide
theorem test_decode_btRead : decode [0x06000001] = .ok (.btRead .fast) := by decide
theorem test_decode_filterWrite :
    decode [0x07000012, 0x01ABCDE0, 0x1FFFFFFF] = .ok (.filterWrite 2 .extOnly 0x1ABCDE0 0x1FFFFFFF) := by decide
theorem test_decode_filterEnable : decode [0x08010005] = .ok (.filterEnable 5 true) := by decide
theorem test_decode_filterRead : decode [0x0900000E] = .ok (.filterRead 14) := by decide
theorem test_decode_reset : decode [0x0F000000] = .ok .reset := by decide
theorem test_decode_txLoad :
    decode [0x10000001, 0x61ABCDE0, 0x00000004] = .ok (.txLoad .stb ⟨0x1ABCDE0, true, true, false, false, 4, []⟩) := by
  decide
theorem test_decode_txLoad_fd :
    decode [0x10000000, 0x00000321, 0x00000039, 0x04030201, 0x08070605, 0x0C0B0A09]
      = .ok (.txLoad .ptb ⟨0x321, false, false, true, true, 9, [1, 2, 3, 4, 5, 6, 7, 8, 9, 10, 11, 12]⟩) := by decide
theorem test_decode_txEnable : decode [0x11000001] = .ok (.txEnable .stbOne) := by decide
theorem test_decode_txAbort : decode [0x12000002] = .ok (.txAbort false true) := by decide
theorem test_decode_txStatusRead : decode [0x13000000] = .ok .txStatusRead := by decide
theorem test_decode_rxSetConfig : decode [0x20000016] = .ok (.rxSetConfig 6 .saveNew) := by decide
theorem test_decode_rxPeek : decode [0x21000000] = .ok .rxPeek := by decide
theorem test_decode_rxRelease : decode [0x22000000] = .ok .rxRelease := by decide
theorem test_decode_rxStatusRead : decode [0x23000000] = .ok .rxStatusRead := by decide
theorem test_decode_errSetWarnLimit : decode [0x30000060] = .ok (.errSetWarnLimit 96) := by decide
theorem test_decode_errRead : decode [0x31000000] = .ok .errRead := by decide
theorem test_decode_errForceBusOff : decode [0x32000000] = .ok .errForceBusOff := by decide
theorem test_decode_errClearCounters : decode [0x33000000] = .ok .errClearCounters := by decide
theorem test_decode_ttcConfig :
    decode [0x4000000A, 0x200007FF, 0x0064000A, 0x00030001]
      = .ok (.ttcConfig ⟨0x7FF, true, 1, 1, .singleShotTransmit, 3, 10, 100⟩) := by decide
theorem test_decode_ttcEnable : decode [0x41000001] = .ok (.ttcEnable true) := by decide
theorem test_decode_ttcRead : decode [0x42000000] = .ok .ttcRead := by decide
theorem test_decode_statusRead : decode [0x50000000] = .ok .statusRead := by decide
theorem test_decode_statusClear : decode [0x51003FEF] = .ok (.statusClear 0x3FEF) := by decide
theorem test_decode_intEnable : decode [0x52010040] = .ok (.intEnable 0x40 true) := by decide

/-- The reserved codes, reserved bits, unassigned opcodes and wrong counts of X1 to X16. -/
theorem test_decode_rejects_by_name :
    decode [0x00000000] = .error .unassignedOpcode ∧ decode [0x0A000000] = .error .unassignedOpcode
      ∧ decode [0x01000001] = .error .reservedField ∧ decode [0x03000002] = .error .reservedField
      ∧ decode [0x01000000, 0] = .error .wrongWordCount ∧ decode [0x10000000, 0x123, 2] = .error .wrongWordCount
      ∧ decode [0x10000000, 0x123, 2, 0x00FFBBAA] = .error .reservedField
      ∧ decode [0x10000000, 0x123, 0x40] = .error .reservedField
      ∧ decode [0x07000030, 0, 0] = .error .reservedField
      ∧ decode [0x40000005, 0x7FF, 5, 1] = .error .reservedField ∧ decode [0x52014000] = .error .reservedField
      ∧ decode [] = .error .emptyTransaction := by decide

/-- The lines of 30 R76 assemble to their words. -/
theorem test_assembler_lines :
    assemble "CFG_ENTER" = some [0x01000000] ∧ assemble "FILTER_ENABLE sel=0x0001, en=1" = some [0x08010001]
      ∧ assemble "INT_ENABLE mask=0x3FFF, en=0" = some [0x52003FFF] := by
  set_option maxRecDepth 20000 in decide

set_option maxRecDepth 20000 in
theorem test_assembler_tx_load :
    assemble "TX_LOAD buf=PTB, id=0x123, dlc=2, data=[0xAA,0xBB]" = some [0x10000000, 0x123, 2, 0xBBAA] := by decide

set_option maxRecDepth 20000 in
theorem test_assembler_bt_write :
    assemble "BT_WRITE phase=Slow, seg1=16, seg2=4, sjw=1, prescaler=4" = some [0x05000000, 0x04010410] := by decide

set_option maxRecDepth 20000 in
theorem test_assembler_event : assembleEvent "EV_TX_ERROR t=Ack" = some (.txError .ack ⟨false⟩) := by decide

/-! ### The port -/

/-- A transaction that is no command's answers ILLEGAL (X1). -/
theorem test_port_illegal : reply [0x00000000] s0 = some ⟨.illegal, []⟩ := by decide

/-- The response word of ILLEGAL is 15 (30 R68). -/
theorem test_port_illegal_word : (s0.fail .illegal).resp.portWords = [15] := by decide

/-- The very next step after `withFetchWord` runs the transaction, as the first step after reset (log 17). -/
theorem test_first_step_runs :
    (next? (step (State.reset.withFetchWord 32 0x02000000))).map State.mode = some .normal := by decide

/-- Operand words the table gives no bits are zeros: FILTER_WRITE runs as filter 0, StdOnly, in configuration state. -/
theorem test_first_step_pads_with_zeros :
    (next? (step (State.reset.withFetchWord 32 0x07000000))).map State.resp = some ⟨.ok, []⟩ := by decide

/-- A second Transmitting slot is refused (00 R22). -/
theorem test_second_transmitting_refused :
    takeInput (.command 0x50000000 []) { ptbSending with stb := stbSending.stb } = .refused .secondTransmitting := rfl

/-- A state outside I2 faults (60 R161). -/
theorem test_broken_invariant_faults :
    takeInput (.command 0x50000000 []) { ptbSending with mode := .config } = .fault .invariantBroken := rfl

/-! ### Mode, bit timing, filters (40) -/

/-- C6: the PTB goes back to Queued, its enable kept. -/
theorem test_cfgEnter_requeues :
    (after [0x01000000] ptbSending).map (fun t => (t.mode, t.ptb.st, t.ptbEn)) = some (.config, .queued, true) := by
  decide

/-- C8: a single-shot frame is dropped without a flag; `fillPtr` stays. -/
theorem test_cfgEnter_drops_single_shot :
    (after [0x01000000] { stbSending with txOpt := ⟨false, true, false⟩ }).map
      (fun t => (t.stb.map Slot.st, t.stbEn, t.flags)) = some ([.empty, .queued, .queued], .all, 0) := by decide

/-- C7. -/
theorem test_cfgLeave : (after [0x02000000] { ptbQueued with mode := .config }).map
    (fun t => (t.mode, t.select)) = some (.normal, some 0) := by decide

/-- C9. -/
theorem test_setWorkMode : (after [0x03000001] s0).map State.workMode = some .test := by decide

/-- P2 step 1. -/
theorem test_setTxOptions : (after [0x04000004] s0).map State.txOpt = some ⟨false, false, true⟩ := by decide

/-- E2: `seg2 ≥ sjw` is broken. -/
theorem test_btWrite_refuses_order : reply [0x05000000, 0x0103020A] s0Config = some ⟨.configError, []⟩ := by decide

/-- E2's boundary tuple: `seg1 = seg2 + 1`, `seg2 = sjw`. -/
theorem test_btWrite_boundary :
    (after [0x05000000, 0x01040405] s0Config).map State.btSlow = some ⟨5, 4, 4, 1⟩ := by decide

/-- E8. -/
theorem test_btRead : reply [0x06000000] s0 = some ⟨.ok, [0x04010410]⟩ := by decide

/-- E8: 500 kbit/s at 40 MHz (40 R82). -/
theorem test_bit_rate : bitRate 40000000 ⟨16, 4, 1, 4⟩ = 500000 := by
  simp [bitRate]; norm_num

/-- C2: refused in Normal. -/
theorem test_filterWrite_needs_config : reply [0x07000020, 0, 0] s0 = some ⟨.configError, []⟩ := by decide

/-- 40 R83: identifier, mask and type of filter 2, its enable kept. -/
theorem test_filterWrite :
    (after [0x07000012, 0x01ABCDE0, 0x1FFFFFFF] s0Config).map (fun t => t.filt[2]?)
      = some (some ⟨0x1ABCDE0, 0x1FFFFFFF, .extOnly, false⟩) := by decide

/-- C3: filters 0 and 2. -/
theorem test_filterEnable :
    (after [0x08010005] s0).map (fun t => t.filt.map Filter.en)
      = some ([true, false, true] ++ List.replicate 13 false) := by decide

/-- C4. -/
theorem test_filterRead : reply [0x09000000] s0 = some ⟨.ok, [0x00000021, 0, 0]⟩ := by decide

/-- C10. -/
theorem test_reset :
    (after [0x0F000000] full).map (fun t => (t.resp, t.mode, t.rx, t.flags)) = some (⟨.ok, []⟩, .config, [], 0) := by
  decide

/-! ### Transmit (41) -/

/-- T1: the PTB is full. -/
theorem test_txLoad_full : reply [0x10000000, 0x002, 0] ptbQueued = some ⟨.bufferFull, []⟩ := by decide

/-- T4: the freed slot is found from the fill pointer. -/
theorem test_txLoad_stb_target :
    (after [0x10000001, 0x010, 0]
      { stbQueued with stb := [⟨.queued, fr 1, 1, false⟩, emptySlot, ⟨.queued, fr 3, 3, false⟩] }).map
      (fun t => (t.stb[1]?, t.fillPtr)) = some (some ⟨.queued, fr 0x10, 4, false⟩, 2) := by decide

/-- T8. -/
theorem test_txEnable : (after [0x11000001] { stbQueued with stbEn := .off }).map State.stbEn = some .one := by decide

/-- T9: an empty buffer is not enabled. -/
theorem test_txEnable_empty : (after [0x11000000] s0).map State.ptbEn = some false := by decide

/-- T11. -/
theorem test_txAbort :
    (after [0x12000002] stbSending).map
      (fun t => (t.stb.map Slot.st, t.stb.map Slot.abortReq, t.stbEn, t.view))
      = some ([.transmitting, .empty, .empty], [true, false, false], .all, 0x0004) := by decide

/-- T16: nothing to abort, no flag. -/
theorem test_txAbort_nothing : (after [0x12000003] s0).map State.view = some 0 := by decide

/-- T21. -/
theorem test_txStatusRead : reply [0x13000000] ptbSending = some ⟨.ok, [0x00400006]⟩ := by decide

/-- P2 step 6. -/
theorem test_txStatusRead_stb : reply [0x13000000] stbQueued = some ⟨.ok, [0x00002070]⟩ := by decide

/-- T7: under ID priority 0x400 extended goes before 0x7FF standard. -/
theorem test_txStart_priority :
    (happens .txStart
      { stbQueued with
        stb := [⟨.queued, fr 0x7FF, 1, false⟩, ⟨.queued, { fr 0x400 with ide := true }, 2, false⟩, emptySlot]
        txOpt := ⟨false, false, true⟩ }).map (fun t => t.stb.map Slot.st)
      = some [.queued, .transmitting, .empty] := by decide

/-- T5: in FIFO order the oldest stamp goes first. -/
theorem test_txStart_fifo : (happens .txStart stbQueued).map (fun t => t.stb.map Slot.st)
    = some [.transmitting, .queued, .queued] := by decide

/-- T12: success clears the slot even with an abort asked for. -/
theorem test_txSuccess :
    (happens .txSuccess
      { s0 with stb := [⟨.transmitting, fr 1, 1, true⟩, emptySlot, emptySlot], stbEn := .all, nextSeq := 2, flags := 4 }).map
      (fun t => (t.stb.map Slot.st, t.stbEn, t.view)) = some ([.empty, .empty, .empty], .off, 0x0006) := by decide

/-- T13 and T14: the abort is honoured, or the frame is tried again. -/
theorem test_txArbLost :
    (happens (.txArbLost 1 honour) ptbAborting).map (fun t => (t.ptb.st, t.ptbEn, t.view)) = some (.empty, false, 0x0084)
      ∧ (happens (.txArbLost 1 retry) ptbAborting).map (fun t => (t.ptb.st, t.ptb.abortReq, t.ptbEn, t.view))
        = some (.queued, false, true, 0x0080) := by decide

/-- An honoured abort empties the slot and sets TX_ABORTED at bus-off (41 R91, D21); where CFG_ENTER ends the attempt the
frame is Queued again, without its request and without a flag (D23, 40 R77, 70 R184). -/
theorem test_abort_asked_at_bus_off_and_config_entry :
    (happens (.busOff honour) ptbAborting).map (fun t => (t.ptb.st, t.ptbEn, t.view)) = some (.empty, false, 0x0804)
      ∧ (after [0x01000000] ptbAborting).map (fun t => (t.ptb.st, t.ptb.abortReq, t.ptbEn, t.flags))
        = some (.queued, false, true, 0) := by decide

/-- A designated slot waits for its trigger (44 R124): held it is not sent, released it is; Time holds nothing. -/
theorem test_txStart_held :
    (happens .txStart (ptbHeld .transmitStart)).isNone = true
      ∧ (happens .txStart { ptbHeld .transmitStart with released := true }).map (fun t => t.ptb.st) = some .transmitting
      ∧ (happens .txStart (ptbHeld .time)).map (fun t => t.ptb.st) = some .transmitting := by decide

/-- T17: a single-shot frame is dropped and `tec` counts 8. -/
theorem test_txError :
    (happens (.txError .ack retry) { ptbSending with txOpt := ⟨true, false, false⟩ }).map
      (fun t => (t.ptb.st, t.ptbEn, t.tecCount, t.errorWord, t.view))
      = some (.empty, false, 8, 0x00100800, 0x0100) := by decide

/-! ### Receive (42) -/

/-- X17: a limit of 0 is a range error. -/
theorem test_rxSetConfig_zero : reply [0x20000000] s0 = some ⟨.configError, []⟩ := by decide

/-- Q4's setup: limit 6, SaveNew. -/
theorem test_rxSetConfig : (after [0x20000016] s0).map (fun t => (t.afwl, t.rxPolicy)) = some (6, .saveNew) := by decide

/-- Q6. -/
theorem test_rxPeek :
    reply [0x21000000]
      { s0 with
        rx := [⟨⟨0x321, false, false, true, true, 9, [1, 2, 3, 4, 5, 6, 7, 8, 9, 10, 11, 12]⟩, .none, 0⟩] }
      = some ⟨.ok, [0x00000321, 0x00000039, 0x04030201, 0x08070605, 0x0C0B0A09]⟩ := by decide

/-- Q5: an extended remote frame with a fault class, no data words; and Q7's EMPTY. -/
theorem test_rxPeek_remote :
    reply [0x21000000] { s0 with rx := [⟨⟨0x1ABCDE0, true, true, false, false, 4, []⟩, .stuff, 0⟩] }
      = some ⟨.ok, [0x61ABCDE0, 0x000000C4]⟩ ∧ reply [0x21000000] s0 = some ⟨.empty, []⟩ := by decide

/-- Q10. -/
theorem test_rxRelease :
    (after [0x22000000] { full with flags := 0x0030 }).map (fun t => (t.rx.length, t.view)) = some (7, 0x0020) := by decide

/-- Q7: an empty FIFO. -/
theorem test_rxRelease_empty : reply [0x22000000] s0 = some ⟨.empty, []⟩ := by decide

/-- P3 step 10. -/
theorem test_rxStatusRead : reply [0x23000000] full = some ⟨.ok, [0x000009B8]⟩ := by decide

/-- Q4: at a full FIFO under SaveNew the oldest frame goes. -/
theorem test_rxFrame_saveNew :
    (happens (.rxFrame (fr 0x99) .none retry) { full with rxPolicy := .saveNew, flags := 0 }).map
      (fun t => (t.rx.map fun e => e.frame.id, t.view))
      = some ([0x11, 0x12, 0x13, 0x14, 0x15, 0x16, 0x17, 0x99], 0x0058) := by decide

/-- P4 step 6: the reference is stored with the old time and restarts the timer. -/
theorem test_rxFrame_reference :
    (happens (.rxFrame (fr 0x7FF) .none retry) { ttcOn with timer := 3 }).map
      (fun t => (t.timer, t.rx.map RxFrame.cycleTime)) = some (0, [3]) := by decide

/-- F2, F7, F10 and F11. -/
theorem test_filters :
    State.accepted { s0 with filt := [⟨0x123, 0x7FF, .stdOnly, true⟩] } (fr 0x124) = false
      ∧ State.accepted { s0 with filt := [⟨0x120, 0x7F0, .both, true⟩] } (fr 0x12F) = true
      ∧ State.accepted { s0 with filt := [⟨0x120, 0x7F0, .both, true⟩] } { fr 0x1000120 with ide := true } = true
      ∧ State.accepted { s0 with filt := [⟨0x1ABCDE0, 0x1FFFFFFF, .both, true⟩] } (fr 0x5E0) = true := by decide

/-- Q8. -/
theorem test_rxError :
    (happens (.rxError .form retry) s0).map (fun t => (t.recCount, t.errorWord, t.view))
      = some (1, 0x00080001, 0x0100) := by decide

/-! ### Errors (43) -/

/-- K6. -/
theorem test_errSetWarnLimit : reply [0x30000000] s0 = some ⟨.configError, []⟩
    ∧ (after [0x300000FF] s0).map State.ewl = some 255 := by decide

/-- K9. -/
theorem test_errRead :
    reply [0x31000000]
      { s0 with recCount := 3, tecCount := 200, busOff := true, lastErrorType := .crc, alc := 7 }
      = some ⟨.ok, [0x00F5C803, 0x00000060]⟩ := by decide

/-- K8. -/
theorem test_errForceBusOff_needs_test : reply [0x32000000] s0 = some ⟨.configError, []⟩ := by decide

/-- P6 step 6. -/
theorem test_errForceBusOff : (after [0x32000000] { s0 with workMode := .test }).map State.busOff = some true := by decide

/-- P6 step 8: the node stays in bus-off. -/
theorem test_errClearCounters :
    (after [0x33000000] { off with workMode := .test }).map (fun t => (t.tecCount, t.busOff)) = some (0, true) := by decide

/-- P6 step 5. -/
theorem test_errClearCounters_needs_bus_off :
    reply [0x33000000] { s0 with workMode := .test } = some ⟨.configError, []⟩ := by decide

/-- K4: the counter clamps at 255 and the node is error-passive. -/
theorem test_counter_clamps :
    (happens (.txError .crc retry) { ptbSending with tecCount := 248 }).map
      (fun t => (t.tecCount, t.errorWord, t.view)) = some (255, 0x0016FF00, 0x0500) := by decide

/-- T19 and T20. -/
theorem test_busOff :
    (happens (.busOff retry) ptbSending).map (fun t => (t.ptb.st, t.ptbEn, t.busOff, t.view))
      = some (.queued, true, true, 0x0800)
      ∧ (happens .busOffRecover off).map (fun t => (t.busOff, t.tecCount)) = some (false, 0) := by decide

/-! ### TTC (44) -/

/-- M3 and M4. -/
theorem test_ttcConfig_refuses :
    reply [0x40000001, 0x7FF, 5, 0] s0 = some ⟨.configError, []⟩
      ∧ reply [0x40000001, 0x800, 5, 1] s0 = some ⟨.configError, []⟩ := by decide

/-- M18: a TransmitStop write keeps the release. -/
theorem test_ttcConfig_keeps_release :
    (after [0x4000000C, 0x7FF, 8, 1] { ttcOn with released := true }).map
      (fun t => (t.released, t.ttcCfg.trigType)) = some (true, .transmitStop) := by decide

/-- M8 and M10. -/
theorem test_ttcEnable :
    (after [0x41000001] { ttcOn with timer := 2 }).map State.timer = some 2
      ∧ (after [0x41000001] { ttcOn with timer := 2, ttcEn := false }).map State.timer = some 0 := by decide

/-- M9: frozen, disabled. -/
theorem test_ttcEnable_off :
    (after [0x41000000] { ttcOn with timer := 2 }).map (fun t => (t.ttcEn, t.timer)) = some (false, 2) := by decide

/-- P7 step 6. -/
theorem test_ttcRead : reply [0x42000000] { ttcOn with timer := 10, released := true } = some ⟨.ok, [0x0003000A]⟩ := by
  decide

/-- M11: the timer wraps to 0 and meets both comparisons. -/
theorem test_clkTick_wraps :
    (happens .clkTick
      { ttcOn with ttcCfg := { cfgP4 with trigTime := 0, watchTime := 0 }, timer := 65535 }).map
      (fun t => (t.timer, t.view)) = some (0, 0x3000) := by decide

/-- M19: the window of a single-shot release closes at `10 + 3 + 1`. -/
theorem test_clkTick_window :
    (happens .clkTick
      { ttcOn with
        ttcCfg := ⟨0x7FF, false, 1, 1, .singleShotTransmit, 3, 10, 0⟩, timer := 13, released := true }).map
      State.released = some false := by decide

/-! ### Status and interrupts (45) -/

/-- S1. -/
theorem test_statusRead :
    reply [0x50000000] { s0 with flags := 8, busOff := true, ie := 8 } = some ⟨.ok, [0x00080808]⟩ := by decide

/-- Q9: RX_RECEIVED cleared, RX_OVERFLOW kept. -/
theorem test_statusClear : (after [0x51000018] full).map State.view = some 0x0070 := by decide

/-- S2: the request is up at once. -/
theorem test_intEnable : (after [0x52010040] { full with ie := 0 }).map (fun t => (t.ie, t.irq)) = some (0x40, true) := by
  decide

/-! ### Driver calls (46) -/

/-- H1 to H4. -/
theorem test_transmit_fire_and_forget :
    (transmitDriver ⟨0x123, false, false, false, false, 2, [0xAA, 0xBB]⟩ .ptb .one 0 ⟨s0, []⟩).map
      (fun x => (x.1, x.2.block.ptb.st)) = some (.ok, .queued) := by decide

theorem test_transmit_times_out :
    (transmitDriver (fr 0x123) .ptb .one 1 ⟨s0, []⟩).map Prod.fst = some .errorTimeout := by decide

theorem test_transmit_full :
    (transmitDriver (fr 0x123) .ptb .one 0 ⟨ptbQueued, []⟩).map Prod.fst = some .errorBufferFull := by decide

/-- H5. -/
theorem test_receive :
    (receiveDriver 2 ⟨{ s0 with rx := [rxf 1, rxf 2, rxf 3] }, []⟩).map
      (fun x => (x.1, x.2.block.rx)) = some ([rxf 1, rxf 2], [rxf 3]) := by decide

/-- H6: both flags clear, the oldest frame gone. -/
theorem test_clearStatus :
    (clearStatusDriver 0x18 ⟨full, []⟩).map (fun h => (h.block.rx.length, h.block.view)) = some (7, 0x0020) := by decide

/-- H7. -/
theorem test_getStatus : (getStatusDriver 0x0009 ⟨oneFrame, []⟩).map Prod.fst = some true := by decide

/-! ### Witnesses: for every statement with hypotheses, states and operands that meet each clause's hypotheses together -/

theorem idle_of {s : State} (h : s.busy = false) (k : Nat) : (s.slot k).st ≠ .transmitting := by
  intro hk
  have := s.busy_iff.mpr ⟨k, hk⟩
  rw [h] at this
  cases this

theorem witness_DecodeOfEncode :
    (Instr.txLoad .ptb ⟨0x123, false, false, false, false, 2, [0xAA, 0xBB]⟩).wf = true
      ∧ (Instr.txLoad .stb ⟨0x1FFFFFFF, true, false, true, true, 15, List.replicate 64 0xFF⟩).wf = true
      ∧ (Instr.ttcConfig cfgP4).wf = true := by decide

/-- The largest transaction, 19 words, is one the two decoding statements speak of (X21). -/
theorem witness_DecodeAcceptsOnlyEncodings :
    (decode ([0x10000001, 0x21ABCDE0, 0x0000003F] ++ List.replicate 16 0xFFFFFFFF)).toOption
      = some (.txLoad .stb ⟨0x1ABCDE0, true, false, true, true, 15, List.replicate 64 0xFF⟩) := by decide

/-- OperandsStandInTheMapsFields: the decodings `test_decode_…` above, one for each of its clauses; here the boundary
values of a field. -/
theorem witness_OperandsStandInTheMapsFields :
    decode [0x0801FFFF] = .ok (.filterEnable 0xFFFF true) ∧ decode [0x0800FFFF] = .ok (.filterEnable 0xFFFF false)
      ∧ decode [0x52013FFF] = .ok (.intEnable 0x3FFF true) ∧ decode [0x51000000] = .ok (.statusClear 0) := by decide

/-- The opcodes at the ends of each gap of 30 R71, and no command is encoded as the all-zero word. -/
theorem witness_NonCommandsAnswerIllegal :
    (∀ i : Instr, i.wf = true → encode i ≠ [0x00000000])
      ∧ ∀ c ∈ [0x00, 0x0A, 0x0E, 0x14, 0x1F, 0x24, 0x2F, 0x34, 0x3F, 0x43, 0x4F, 0x53, 0xFF],
        c ∈ [0x00] ++ List.range' 0x0A 5 ++ List.range' 0x14 12 ++ List.range' 0x24 12
          ++ List.range' 0x34 12 ++ List.range' 0x43 13 ++ List.range' 0x53 0xAD := by
  refine ⟨fun i _ h => ?_, by decide⟩
  have h1 := i.w0_opcode
  have h2 : i.w0 = 0x00000000 := (List.cons.inj h).1
  rw [h2] at h1
  revert h1
  cases i.opcode <;> decide

/-- A listed transaction that is a command's, and one that is not. -/
theorem witness_StepRunsTheDecodedCommand :
    (s0.offer [0x50000000]).inputs = [.command 0x50000000 []] ∧ (s0.offer [0x50000000]).inv = true
      ∧ decode [0x50000000] = .ok .statusRead ∧ decode [0x00000000] = .error .unassignedOpcode := by decide

/-- Each event, where it can occur and where it cannot. -/
theorem witness_EventsOccurExactlyUnderTheirPreconditions :
    (eventCanOccur .txStart ptbQueued = true ∧ eventCanOccur .txStart s0 = false)
      ∧ (eventCanOccur .txStart (ptbHeld .transmitStop) = false ∧ eventCanOccur .txStart (ptbHeld .immediate) = true)
      ∧ (eventCanOccur .txSuccess ptbSending = true ∧ eventCanOccur .txSuccess s0 = false)
      ∧ (eventCanOccur (.txArbLost 31 retry) ptbSending = true ∧ eventCanOccur (.txArbLost 0 retry) s0 = false)
      ∧ (eventCanOccur (.txError .bit retry) ptbSending = true ∧ eventCanOccur (.txError .none retry) ptbSending = false)
      ∧ (eventCanOccur (.rxFrame (fr 0x7FF) .none retry) s0 = true
        ∧ eventCanOccur (.rxFrame (fr 0x800) .none retry) s0 = false
        ∧ eventCanOccur (.rxFrame { fr 1 with dlc := 1 } .none retry) s0 = false)
      ∧ (eventCanOccur (.rxError .crc retry) s0 = true ∧ eventCanOccur (.rxError .crc retry) off = false)
      ∧ (eventCanOccur (.busOff retry) s0 = true ∧ eventCanOccur (.busOff retry) s0Config = false)
      ∧ (eventCanOccur .busOffRecover off = true ∧ eventCanOccur .busOffRecover s0 = false)
      ∧ eventCanOccur .clkTick s0Config = true := by decide

/-- States within the invariants, idle and busy, with each of the three kinds of input listed. -/
theorem witness_StepStopsOnlyOnImpossibleInputs :
    s0.inv = true ∧ ptbSending.inv = true ∧ full.inv = true
      ∧ ({ s0 with inputs := [.event .txSuccess] } : State).inv = true
      ∧ ({ s0 with inputs := [.hostBreach .clockOff] } : State).inv = true
      ∧ ({ s0 with inputs := [.hardwareReset] } : State).inv = true := by decide

theorem witness_ResetMeetsTheInvariants : 0 < defaultNstb ∧ paramsUsable defaultParams = true := by decide

/-- Steps from legal states: a command, an event and a reset. -/
theorem witness_StepKeepsTheInvariants :
    ptbQueued.legal = true
      ∧ (next? (step { ptbQueued with inputs := [.event .txStart] })).isSome = true
      ∧ (next? (step (full.offer [0x22000000]))).isSome = true
      ∧ (next? (step { full with inputs := [.hardwareReset] })).isSome = true := by decide

theorem witness_StepKeepsStatesTyped :
    s0.typed = true ∧ ttcOn.typed = true ∧ ttcOn.inv = true
      ∧ (next? (step { ttcOn with inputs := [.event (.rxFrame (fr 1) .none retry)] })).isSome = true := by decide

theorem witness_ParametersAndSizesNeverChange : (next? (step (s0.offer [0x0F000000]))).isSome = true := by decide

/-- A code of each kind but OK. -/
theorem witness_FailingCommandChangesOnlyTheResponse :
    (reply [0x02000001] s0).map Response.code = some .illegal
      ∧ (reply [0x11000000] s0Config).map Response.code = some .configError
      ∧ (reply [0x10000000, 5, 0] ptbQueued).map Response.code = some .bufferFull
      ∧ (reply [0x22000000] s0).map Response.code = some .empty := by decide

theorem witness_ReadCommandsChangeOnlyTheResponse :
    (Instr.opcode .rxPeek) ∈ [Opcode.btRead, .filterRead, .txStatusRead, .rxPeek, .rxStatusRead, .errRead, .ttcRead,
      .statusRead] := by decide

/-- Every event, in a state in which it has a step. -/
theorem witness_EventsKeepResponseAndConfiguration :
    (happens .txStart ptbQueued).isSome = true ∧ (happens .txSuccess ptbSending).isSome = true
      ∧ (happens (.txArbLost 3 retry) ptbSending).isSome = true
      ∧ (happens (.txError .bit retry) ptbSending).isSome = true
      ∧ (happens (.rxFrame (fr 1) .none retry) s0).isSome = true ∧ (happens (.rxError .bit retry) s0).isSome = true
      ∧ (happens (.busOff retry) s0).isSome = true ∧ (happens .busOffRecover off).isSome = true
      ∧ (happens .clkTick ttcOn).isSome = true := by decide

theorem witness_TimingAndFilterContentsChangeOnlyInConfig :
    s0.mode = .normal ∧ resets (.command 0x08010005 []) = false ∧ (after [0x08010005] s0).isSome = true := by decide

/-- The one command that changes a counter in production, and a change. -/
theorem witness_CommandsNeverWriteTheCountersInProduction :
    (next? (exec .errClearCounters { off with workMode := .test })).map State.tecCount = some 0 ∧ off.tecCount ≠ 0 := by
  decide

/-- The flag stays over a STATUS_CLEAR; and an arrival at a full FIFO sets it. -/
theorem witness_OverflowFlagNeedsARelease :
    (full.flag .rxOverflow = true ∧ releases (.command 0x51003FFF []) = false ∧ resets (.command 0x51003FFF []) = false
      ∧ (after [0x51003FFF] full).isSome = true)
    ∧ (({ full with flags := 0 } : State).flag .rxOverflow = false
      ∧ (happens (.rxFrame (fr 0x99) .none retry) { full with flags := 0 }).map (State.flag · .rxOverflow) = some true) := by
  decide

theorem witness_BusOffNodeIsSilent :
    off.inv = true ∧ off.busOff = true ∧ Event.txStart ≠ .busOffRecover ∧ Event.txStart ≠ .clkTick := by decide

theorem witness_ConfigEnterEndsTheAttempt :
    (∀ k, (s0.slot k).st ≠ .transmitting)
      ∧ (ptbSending.inv1 = true ∧ (ptbSending.slot 0).st = .transmitting ∧ (stbSending.slot 1).st = .transmitting)
      ∧ (ptbAborting.inv1 = true ∧ (ptbAborting.slot 0).st = .transmitting ∧ ptbAborting.txOpt.ptbSS = false
        ∧ ptbAborting.ttcEn = false) :=
  ⟨idle_of (by decide), by decide, by decide⟩

/-- A legal tuple at the bounds of both order checks, and one that each check refuses. -/
theorem witness_BitTimingWriteChecksAndWrites :
    s0Config.mode = .config ∧ s0Config.timingLegal .slow ⟨5, 4, 4, 1⟩ = true
      ∧ s0Config.timingLegal .fast ⟨255, 254, 254, 255⟩ = true
      ∧ s0Config.timingLegal .slow ⟨4, 4, 1, 1⟩ = false ∧ s0Config.timingLegal .slow ⟨10, 2, 3, 1⟩ = false
      ∧ s0Config.timingLegal .slow ⟨10, 4, 1, 0⟩ = false ∧ s0.mode = .normal := by decide

theorem witness_BitTimingReadsBack :
    encode (.btWrite .fast ⟨3, 2, 1, 2⟩) = [0x05000001, 0x02010203]
      ∧ (next? (exec (.btWrite .fast ⟨3, 2, 1, 2⟩) s0Config)).map (fun t => t.resp.code) = some .ok := by decide

/-- The last filter there is, and the first that is not, in a bank of 15. -/
theorem witness_FilterWriteChangesOneFilter :
    s0Config.mode = .config ∧ (15 : BitVec 4).toNat < s0Config.filt.length ∧ s0.mode = .normal
      ∧ ({ s0 with filt := s0.filt.take 15 } : State).filt.length ≤ (15 : BitVec 4).toNat := by decide

theorem witness_FilterEnableChangesTheSelectedEnables :
    (∀ i, s0.filt.length ≤ i → (0x8001 : BitVec 16).getLsbD i = false)
      ∧ ({ s0 with filt := s0.filt.take 15 } : State).filt.length ≤ 15 ∧ (0x8000 : BitVec 16).getLsbD 15 = true :=
  ⟨fun i hi => BitVec.getLsbD_of_ge _ _ hi, by decide, by decide⟩

theorem witness_FilterReadAnswersTheFilter :
    s0.filt[(0 : BitVec 4).toNat]? = some ⟨0, 0, .both, true⟩
      ∧ ({ s0 with filt := s0.filt.take 15 } : State).filt.length ≤ (15 : BitVec 4).toNat := by decide

/-- A parameter set with a legal prescaler, and a drawn standard reference identifier. -/
theorem witness_ResetPutsTheResetState :
    s0.params.ttcPrescOk ≠ []
      ∧ (State.resetWith defaultParams 3 16 { (default : Config.ResetDraw) with afwl := 7, ewl := 254 }).ttcCfg.refIde
        = false := by decide

theorem witness_ResetCanDrawEveryLegalValue :
    s0.filt.length = 16 ∧ 1 ≤ (8 : BitVec 4).toNat ∧ (8 : BitVec 4).toNat ≤ 8 ∧ (255 : BitVec 8) ≠ 0
      ∧ cfgP4.slotPtr.toNat ≤ 3 ∧ cfgP4.presc ∈ defaultParams.ttcPrescOk
      ∧ (cfgP4.refIde = false → cfgP4.refId.toNat < 2 ^ 11) := by decide

/-- One state for each of the five clauses. -/
theorem witness_TransmitLoadChecksInOrderAndFillsThePtb :
    s0Config.mode = .config ∧ (s0.mode = .normal ∧ (fr 0x800).wellFormed = false)
      ∧ (ptbQueued.mode = .normal ∧ (fr 0x7FF).wellFormed = true ∧ ptbQueued.ptb.st ≠ .empty)
      ∧ (stbQueued.mode = .normal ∧ ∀ sl ∈ stbQueued.stb, sl.st ≠ .empty) ∧ s0.ptb.st = .empty := by decide

theorem witness_TransmitLoadFillsTheNextStbSlot :
    s0.mode = .normal ∧ (fr 1).wellFormed = true ∧ ∃ sl ∈ s0.stb, sl.st = .empty := by decide

theorem witness_TransmitEnableNeedsAFrame :
    s0Config.mode = .config ∧ (ptbQueued.mode = .normal ∧ ptbQueued.ptb.st ≠ .empty)
      ∧ (s0.mode = .normal ∧ s0.ptb.st = .empty) ∧ (∃ sl ∈ stbQueued.stb, sl.st ≠ .empty)
      ∧ ∀ sl ∈ s0.stb, sl.st = .empty := by decide

/-- A frame removed, none removed, frames left in the STB, none left. -/
theorem witness_TransmitAbortRemovesQueuedFrames :
    (after [0x12000002] stbSending).map (fun t => t.stb.map Slot.st) = some [.transmitting, .empty, .empty]
      ∧ (after [0x12000002] stbQueued).map (fun t => t.stb.map Slot.st) = some [.empty, .empty, .empty]
      ∧ (after [0x12000001] stbQueued).map (fun t => t.stb.map Slot.st) = some [.queued, .queued, .queued] := by decide

theorem witness_TransmitStatusWordHasItsFields : s0.stb.length < 256 ∧ stbQueued.fillPtr < 256 := by decide

/-- Slot 0 and slot 1: single-shot by each of the three ways, an abort honoured, neither. -/
theorem witness_FailedAttemptDropsOrRequeuesTheFrame :
    (ptbSending.slot 0).st = .transmitting ∧ (stbSending.slot 1).st = .transmitting
      ∧ ({ ptbSending with txOpt := ⟨true, false, false⟩ } : State).singleShot 0 = true
      ∧ ({ stbSending with txOpt := ⟨false, true, false⟩ } : State).singleShot 1 = true
      ∧ ({ stbSending with ttcEn := true, ttcCfg := ⟨0x7FF, false, 1, 1, .singleShotTransmit, 3, 10, 0⟩ } : State).singleShot
        1 = true
      ∧ (ptbAborting.singleShot 0 = false ∧ (ptbAborting.slot 0).abortReq = true ∧ honour.honour = true)
      ∧ (ptbSending.singleShot 0 = false ∧ (ptbSending.slot 0).abortReq = false) := by decide

/-- The PTB pending, and only STB slots pending, in both orders; a slot that TTC holds, and the same released. -/
theorem witness_TransmitStartSendsTheSchedulersChoice :
    (ptbQueued.mode = .normal ∧ ptbQueued.busOff = false ∧ (∀ k, (ptbQueued.slot k).st ≠ .transmitting)
      ∧ ptbQueued.pending 0 = true)
    ∧ ((∀ k, (stbQueued.slot k).st ≠ .transmitting) ∧ stbQueued.pending 0 = false ∧ stbQueued.pending 1 = true
      ∧ stbQueued.pending 3 = true ∧ stbQueued.txOpt.stbPrio = false)
    ∧ ({ stbQueued with txOpt := ⟨false, false, true⟩ } : State).pending 2 = true
    ∧ ((ptbHeld .singleShotTransmit).pending 0 = false
      ∧ ({ ptbHeld .singleShotTransmit with released := true } : State).pending 0 = true) :=
  ⟨⟨by decide, by decide, idle_of (by decide), by decide⟩,
    ⟨idle_of (by decide), by decide, by decide, by decide, by decide⟩, by decide, by decide⟩

theorem witness_TransmitSuccessEmptiesTheSlot :
    (ptbSending.inv1 = true ∧ (ptbSending.slot 0).st = .transmitting)
      ∧ stbSending.inv1 = true ∧ (stbSending.slot 1).st = .transmitting := by decide

theorem witness_LostAndFailedAttemptsAreRecorded :
    ptbAborting.inv1 = true ∧ (ptbAborting.slot 0).st = .transmitting ∧ ErrorType.ack ≠ .none := by decide

/-- The ends of both ranges. -/
theorem witness_LimitCommandsCheckTheirRange :
    (1 ≤ (1 : BitVec 4).toNat ∧ (1 : BitVec 4).toNat ≤ 8) ∧ (1 ≤ (8 : BitVec 4).toNat ∧ (8 : BitVec 4).toNat ≤ 8)
      ∧ (0 : BitVec 4).toNat = 0 ∧ 9 ≤ (9 : BitVec 4).toNat ∧ (1 : BitVec 8) ≠ 0 := by decide

/-- An empty FIFO; a FIFO with a frame of 12 bytes, three data words, of which byte 11 is the last. -/
theorem witness_ReceivePeekAnswersTheOldestFrame : s0.rx = [] ∧ oneFrame.rx = [rxf 0x10] ∧ 11 < 4 * ((12 + 3) / 4) := by
  decide

theorem witness_ReceiveReleaseRemovesTheOldestFrame :
    s0.rx = [] ∧ ∃ e rest, full.rx = e :: rest := ⟨by decide, _, _, rfl⟩

/-- Empty, full, below the limit, at the limit. -/
theorem witness_ReceiveStatusWordHasItsFields :
    s0.rx.length ≤ 8 ∧ full.rx.length = 8 ∧ (oneFrame.rx.length < oneFrame.afwl.toNat)
      ∧ ({ oneFrame with afwl := 1 } : State).afwl.toNat ≤ oneFrame.rx.length := by decide

/-- Accepted with room, accepted at a full FIFO under each policy, not accepted, a reference. -/
theorem witness_ReceptionStoresAcceptedFrames :
    (s0.mode = .normal ∧ s0.busOff = false ∧ (fr 1).wellFormed = true
      ∧ (fr 1).data.length = dataLen (fr 1).dlc (fr 1).fdf (fr 1).rtr)
    ∧ (s0.accepted (fr 1) = true ∧ s0.rx.length < 8)
    ∧ (full.accepted (fr 1) = true ∧ full.rx.length = 8 ∧ full.rxPolicy = .discardNew)
    ∧ ({ full with rxPolicy := .saveNew } : State).rx.length = 8
    ∧ ({ s0 with filt := [] } : State).accepted (fr 1) = false
    ∧ (ttcOn.isReference (fr 0x7FF) = true ∧ ttcOn.isReference (fr 0x7FE) = false) := by decide

/-- Eight arrivals at an empty FIFO, and none. -/
theorem witness_ReceiveReturnsArrivalsInOrder :
    let arrivals : List Arrival := (List.range 8).map fun i => ⟨fr (BitVec.ofNat 29 (0x10 + i)), .none, retry⟩
    s0.rx = [] ∧ arrivals.length ≤ 8 ∧ (∀ a ∈ arrivals, s0.accepted a.frame = true)
      ∧ (runInputs (arrivals.map Arrival.input) s0).isSome = true := by decide

/-- BUSOFF_TEC reached with slot 0 Transmitting and with no slot Transmitting; not set at all. -/
theorem witness_CountersSaturateAndWarn :
    let p : Config.Params := { defaultParams with busOffTec := some 255 }
    let s : State := { ptbSending with tecCount := 248, params := p }
    let u : State := { s0 with tecCount := 248, params := p }
    (p.busOffTec = some 255 ∧ 255 ≤ (s.errUpdate (.txErr .bit) retry).tecCount.toNat ∧ s.busOff = false ∧ s.inv1 = true
      ∧ (s.slot 0).st = .transmitting)
    ∧ (255 ≤ (u.errUpdate (.txErr .bit) retry).tecCount.toNat ∧ u.busOff = false ∧ ∀ k, (u.slot k).st ≠ .transmitting)
    ∧ s0.params.busOffTec = none := ⟨by decide, ⟨by decide, by decide, idle_of (by decide)⟩, by decide⟩

theorem witness_ForceBusOffNeedsTestMode :
    s0.workMode = .normal ∧ ({ off with workMode := .test } : State).busOff = true
      ∧ (∀ k, (({ s0 with workMode := .test } : State).slot k).st ≠ .transmitting) ∧ s0.busOff = false
      ∧ ({ ptbSending with workMode := .test } : State).inv1 = true
      ∧ (({ ptbSending with workMode := .test } : State).slot 0).st = .transmitting :=
  ⟨by decide, by decide, idle_of (by decide), by decide, by decide, by decide⟩

theorem witness_ClearCountersNeedsTestModeAndBusOff :
    (({ off with workMode := .test } : State).workMode = .test ∧ off.busOff = true) ∧ off.workMode = .normal
      ∧ s0.busOff = false := by decide

theorem witness_ErrorEventsWriteTheErrorState :
    (ErrorType.form ≠ .none ∧ s0.mode = .normal ∧ s0.busOff = false) ∧ (∀ k, (s0.slot k).st ≠ .transmitting)
      ∧ (ptbSending.inv1 = true ∧ (ptbSending.slot 0).st = .transmitting) ∧ off.busOff = true :=
  ⟨by decide, idle_of (by decide), by decide, by decide⟩

/-- A legal configuration at the last slot, one slot too far, an illegal prescaler, an identifier too wide. -/
theorem witness_TtcConfigChecksAndWrites :
    s0.ttcLegal { cfgP4 with slotPtr := 3 } = true ∧ s0.ttcLegal { cfgP4 with slotPtr := 4 } = false
      ∧ s0.ttcLegal { cfgP4 with presc := 3 } = false ∧ s0.ttcLegal { cfgP4 with refId := 0x800 } = false
      ∧ s0.ttcLegal { cfgP4 with refId := 0x800, refIde := true } = true := by decide

theorem witness_TtcEnableRestartsOnTheRisingEdge : s0.ttcEn = false ∧ ttcOn.ttcEn = true := by decide

/-- TTC off; a count of the prescaler; an advance; a trigger of each kind; a window that closes. -/
theorem witness_ClockTickCountsAndCompares :
    s0.ttcEn = false
      ∧ (ttcOn.ttcEn = true ∧ (0 : BitVec 16).toNat + 1 < ({ cfgP4 with presc := 2 } : TtcConfig).presc.toNat)
      ∧ ttcOn.ttcCfg.presc.toNat ≤ ttcOn.prescCnt.toNat + 1
      ∧ (happens .clkTick { ttcOn with timer := 4 }).map State.timer = some cfgP4.trigTime
      ∧ (happens .clkTick { ttcOn with timer := 5 }).map State.timer ≠ some cfgP4.trigTime := by decide

/-- Nothing in between and `T = 1`; and a command in between. -/
theorem witness_TriggerFlagIsSetByTheTthTick :
    let s : State := { ttcOn with ttcCfg := { cfgP4 with trigTime := 1 } }
    s.ttcEn = true ∧ s.timer = 0 ∧ s.prescCnt = 0 ∧ s.ttcCfg.presc = 1 ∧ s.ttcCfg.trigTime ≠ 0
      ∧ (∀ i ∈ [Input.command 0x50000000 []], keepsTtcRunning s.ttcCfg i = true)
      ∧ ([Input.command 0x50000000 []].filter isTick).length + 1 = s.ttcCfg.trigTime.toNat
      ∧ (runInputs ([.command 0x50000000 []] ++ [.event .clkTick]) s).isSome = true
      ∧ (runInputs [.command 0x50000000 []] s).isSome = true := by decide

theorem witness_WatchTriggerTellsALostReference :
    let s : State := { ttcOn with ttcCfg := { cfgP4 with presc := 2, watchTime := 1 } }
    let between : List Input := [.event (.rxFrame (fr 0x7FE) .none retry), .event .clkTick]
    s.ttcEn = true ∧ s.timer = 0 ∧ s.prescCnt = 0 ∧ s.ttcCfg.presc ≠ 0 ∧ s.ttcCfg.watchTime ≠ 0
      ∧ (∀ i ∈ between, keepsTtcRunning s.ttcCfg i = true)
      ∧ (between.filter isTick).length + 1 = s.ttcCfg.watchTime.toNat * s.ttcCfg.presc.toNat
      ∧ (runInputs between s).isSome = true ∧ (runInputs (between ++ [.event .clkTick]) s).isSome = true := by decide

theorem witness_StatusClearSparesTheOverflowFlag : (4 ∈ [4, 6, 10, 11]) ∧ (3 ∉ [4, 6, 10, 11]) := by decide

theorem witness_InterruptEnableWritesTheMaskedEnables :
    (0x40 : BitVec 14).getLsbD 6 = true ∧ full.viewBit 6 = true := by decide

/-- The configuration of P1. -/
def initP1 : InitConfig :=
  ⟨.normal, ⟨16, 4, 1, 4⟩, none, ⟨false, false, false⟩, 6, .discardNew, 96, 1, [⟨0, 0, .both⟩], 1⟩

/-- P1's arguments are legal and H8's are not. -/
theorem witness_InitProgramsTheBlockOrTouchesNothing :
    initValid s0 initP1 = true ∧ s0.inv = true ∧ s0.filt.length ≤ 16
      ∧ initValid s0 { initP1 with btSlow := ⟨4, 4, 1, 1⟩ } = false
      ∧ (selectedFilters initP1.filterSel)[0]? = some 0 ∧ initP1.filters[0]? = some ⟨0, 0, .both⟩ := by decide

end Sys2Proof.Tests
end

section
/-! SUPPORT. What the decoder reads is a command (30 R64). -/

namespace Sys2Proof

/-- The data of a frame read from a descriptor has the length the descriptor gives (30 R64). -/
theorem TxFrame.lengthOk_ofWords (d1 d2 : Word) (data : List Word) : (TxFrame.ofWords d1 d2 data).lengthOk = true := by
  simp [TxFrame.lengthOk, TxFrame.ofWords, unpackData]

theorem Opcode.wf_of_fields {o : Opcode} {w0 w1 w2 w3 : Word} {data : List Word} {i : Instr}
    (h : o.fields w0 w1 w2 w3 data = some i) : i.wf = true := by
  cases o with
  | txLoad =>
    simp only [Opcode.fields] at h
    split at h <;> cases h
    exact TxFrame.lengthOk_ofWords w1 w2 data
  | setWorkMode | filterWrite | txEnable | ttcConfig =>
    simp only [Opcode.fields] at h
    split at h
    · obtain ⟨_, -, rfl⟩ := Option.map_eq_some_iff.mp h; rfl
    · cases h
  | _ =>
    simp only [Opcode.fields] at h
    split at h <;> cases h
    rfl

/-- What the decoder reads is a command: the data of a TX_LOAD has the length of its header. -/
theorem decode_wf {ws : List Word} {i : Instr} (h : decode ws = .ok i) : i.wf = true := by
  obtain ⟨w0, rest, o, -, -, -, hf⟩ := decode_ok h
  exact Opcode.wf_of_fields hf

end Sys2Proof
end

section
/-! SUPPORT. What a command can do to the stored part of the state (parameters, checked configuration, buffers, FIFO),
said once for all commands; modes, options, enables, flags, counters and the timer are outside it. -/

namespace Sys2Proof.Machine

open Sys2Proof.Config

/-- The parameters, the bit timing, the filters, the limits, the TTC configuration, the transmit buffers and the receive
FIFO (00 R9; 10 R27, R28, R30 to R32, R35 to R37, R41). -/
structure Store where
  params : Params
  btSlow : BitTiming
  btFast : BitTiming
  filt : List Sys2Proof.Filter
  afwl : BitVec 4
  ewl : BitVec 8
  ttcCfg : TtcConfig
  ptb : Slot
  stb : List Slot
  fillPtr : Nat
  rx : List RxFrame

/-- The stored part of a state. -/
def State.store (s : State) : Store :=
  ⟨s.params, s.btSlow, s.btFast, s.filt, s.afwl, s.ewl, s.ttcCfg, s.ptb, s.stb, s.fillPtr, s.rx⟩

@[simp] theorem State.store_fail (s : State) (c : ResultCode) : (s.fail c).store = s.store := rfl

@[simp] theorem State.store_respond (s : State) (c : ResultCode) (w : List Word) : (s.respond c w).store = s.store :=
  rfl

@[simp] theorem State.store_stbBook (s : State) : s.stbBook.store = s.store := by simp [State.store]

@[simp] theorem State.store_setFlagIf (s : State) (c : Bool) (g : Flag) : (s.setFlagIf c g).store = s.store := by
  simp [State.store]

/-- `StoreChange s i u`: the command `i`, met by the state `s`, can leave the stored part of the state `u`, and passed
the checks named. A command that fails a check, and one that writes other fields only, leaves that of `s`. -/
inductive StoreChange (s : State) : Instr → State → Prop
  | same (i : Instr) : StoreChange s i s
  | cfgEnter : StoreChange s .cfgEnter (s.endAttempt .configEntry ⟨false⟩)
  | btWrite (p : Phase) (t : BitTiming) (hm : s.mode = .config) (ht : s.timingLegal p t = true) :
    StoreChange s (.btWrite p t) (s.setTiming p t)
  | filterWrite (index : BitVec 4) (mt : MaskType) (id mask : BitVec 29) (hm : s.mode = .config)
      (hi : index.toNat < s.nfilt) :
    StoreChange s (.filterWrite index mt id mask)
      { s with filt := s.filt.modify index.toNat fun f => { f with id := id, mask := mask, maskType := mt } }
  | filterEnable (sel : BitVec 16) (en : Bool) (hs : selectsAbsent sel s.nfilt = false) :
    StoreChange s (.filterEnable sel en) { s with filt := enableSelected sel en s.filt }
  | reset : StoreChange s .reset s.resetBlock
  | loadPtb (f : TxFrame) (hm : s.mode = .normal) (hw : f.wellFormed = true) (he : s.ptb.st = .empty) :
    StoreChange s (.txLoad .ptb f) { s with ptb := s.loadedSlot f }
  | loadStb (f : TxFrame) (k : Nat) (hm : s.mode = .normal) (hw : f.wellFormed = true) (hk : s.stbTarget = some k) :
    StoreChange s (.txLoad .stb f) { s with stb := s.stb.set k (s.loadedSlot f), fillPtr := (k + 1) % s.nstb }
  | txAbort (ptb stb : Bool) : StoreChange s (.txAbort ptb stb) (s.abortSlots ptb stb)
  | rxSetConfig (a : BitVec 4) (p : RxPolicy) (ha : afwlLegal a = true) :
    StoreChange s (.rxSetConfig a p) { s with afwl := a }
  | rxRelease : StoreChange s .rxRelease { s with rx := s.rx.tail }
  | errSetWarnLimit (l : BitVec 8) (hl : 1 ≤ l.toNat) : StoreChange s (.errSetWarnLimit l) { s with ewl := l }
  | errForceBusOff (d : AbortDraw) (hw : s.workMode = .test) (hb : s.busOff = false) :
    StoreChange s .errForceBusOff (s.countDraw.enterBusOff d)
  | ttcConfig (c : TtcConfig) (hc : s.ttcLegal c = true) : StoreChange s (.ttcConfig c) { s with ttcCfg := c }

/-- A command that may fail the check `c` leaves the stored part as it was there. -/
theorem storeChange_of_check {s t : State} {i : Instr} {c : Prop} [Decidable c] {r : ResultCode}
    (h : ¬ c → ∃ u, StoreChange s i u ∧ t.store = u.store) :
    ∃ u, StoreChange s i u ∧ (if c then s.fail r else t).store = u.store := by
  by_cases hc : c
  · rw [if_pos hc]; exact ⟨s, .same i, rfl⟩
  · rw [if_neg hc]; exact h hc

theorem State.load_storeChange {s : State} {f : TxFrame} (hm : s.mode = .normal) (hw : f.wellFormed = true)
    (buf : TxBuffer) : ∃ u, StoreChange s (.txLoad buf f) u ∧ (s.load buf f).store = u.store := by
  cases buf with
  | ptb =>
    by_cases he : s.ptb.isEmpty = true
    · rw [State.load, if_pos he]
      exact ⟨_, .loadPtb f hm hw (s.ptb.isEmpty_iff.mp he), rfl⟩
    · rw [State.load, if_neg he]
      exact ⟨s, .same _, rfl⟩
  | stb =>
    cases hk : s.stbTarget with
    | none => exact ⟨s, .same _, by simp [State.load, hk]⟩
    | some k => exact ⟨_, .loadStb f k hm hw hk, by simp only [State.load, hk]; rfl⟩

/-- What a command does to the stored part of the state. -/
theorem exec_storeChange {i : Instr} {s t : State} (h : exec i s = .next t) :
    ∃ u, StoreChange s i u ∧ t.store = u.store := by
  cases i with
  | cfgLeave | setWorkMode | setTxOptions | btRead | txStatusRead | rxStatusRead | errRead | ttcRead | statusRead
  | statusClear | intEnable => cases h; exact ⟨s, .same _, rfl⟩
  | filterRead | rxPeek | errClearCounters | ttcEnable =>
    cases h
    refine ⟨s, .same _, ?_⟩
    (repeat' split) <;> rfl
  | txEnable sel =>
    cases h
    refine ⟨s, .same _, ?_⟩
    cases sel <;> (repeat' split) <;> rfl
  | cfgEnter => cases h; exact ⟨_, .cfgEnter, rfl⟩
  | btWrite p t =>
    cases h
    refine storeChange_of_check fun hm => storeChange_of_check fun ht => ?_
    exact ⟨_, .btWrite p t (not_not.mp hm) (by simpa using ht), rfl⟩
  | filterWrite index mt id mask =>
    cases h
    refine storeChange_of_check fun hm => storeChange_of_check fun hi => ?_
    exact ⟨_, .filterWrite index mt id mask (not_not.mp hm) (by omega), rfl⟩
  | filterEnable sel en =>
    cases h
    exact storeChange_of_check fun hs => ⟨_, .filterEnable sel en (by simpa using hs), rfl⟩
  | reset => cases h; exact ⟨_, .reset, rfl⟩
  | txLoad buf f =>
    cases h
    refine storeChange_of_check fun hm => storeChange_of_check fun hw => ?_
    exact State.load_storeChange (not_not.mp hm) (by simpa using hw) buf
  | txAbort p q =>
    cases h
    refine ⟨_, .txAbort p q, ?_⟩
    simp only [State.store_respond, State.store_setFlagIf, State.store_stbBook]
    split <;> rfl
  | rxSetConfig a p => cases h; exact storeChange_of_check fun ha => ⟨_, .rxSetConfig a p (by simpa using ha), rfl⟩
  | rxRelease =>
    cases h
    cases hr : s.rx with
    | nil => exact ⟨s, .same _, rfl⟩
    | cons e rest => exact ⟨_, .rxRelease, by simp [State.store, hr]⟩
  | errSetWarnLimit l => cases h; exact storeChange_of_check fun hl => ⟨_, .errSetWarnLimit l (by omega), rfl⟩
  | errForceBusOff =>
    cases h
    refine storeChange_of_check fun hw => ?_
    by_cases hb : s.busOff = true
    · rw [if_pos hb]; exact ⟨s, .same _, rfl⟩
    · rw [if_neg hb]; exact ⟨_, .errForceBusOff _ (not_not.mp hw) (by simpa using hb), rfl⟩
  | ttcConfig c => cases h; exact storeChange_of_check fun hc => ⟨_, .ttcConfig c (by simpa using hc), rfl⟩

end Sys2Proof.Machine
end

section
/-! SUPPORT. What every input leaves alone: the parameters and the numbers of slots and filters (00 R9, R28, R36), and
in normal state the bit timing and what the filters compare (00 R20, 70 R178). -/

namespace Sys2Proof.Machine

/-- A step is what the next input does to the state, but for the model's own fields. -/
theorem step_next {s t : State} (h : step s = .next t) :
    ∃ i l d, runInput i { s with inputs := l, draws := d } = .next t := by
  obtain ⟨l, d, hu⟩ := nextInput_fields s
  obtain ⟨-, hr⟩ := takeInput_next h
  exact ⟨_, l, d, hu ▸ hr⟩

/-! ### Parameters and sizes -/

/-- `t` has the parameters of `s` and as many slots and filters (log 5, log 6). -/
structure SameSizes (s t : State) : Prop where
  params : t.params = s.params
  stb : t.stb.length = s.stb.length
  filt : t.filt.length = s.filt.length

theorem SameSizes.nstb {s t : State} (h : SameSizes s t) : t.nstb = s.nstb := h.stb

theorem SameSizes.of_store {s t u : State} (h : SameSizes s u) (ht : t.store = u.store) : SameSizes s t where
  params := (congrArg Store.params ht).trans h.params
  stb := (congrArg (fun r => r.stb.length) ht).trans h.stb
  filt := (congrArg (fun r => r.filt.length) ht).trans h.filt

theorem sameSizes_resetBlock (s : State) : SameSizes s s.resetBlock where
  params := rfl
  stb := by simp [State.resetBlock, State.resetWith]
  filt := by simp [State.resetBlock, State.resetWith, drawFilters]

theorem sameSizes_eventEffect (e : Event) (s : State) : SameSizes s (eventEffect e s) where
  params := eventEffect_params e s
  stb := stb_length_eventEffect e s
  filt := by rw [eventEffect_filt]

@[simp] theorem State.stb_length_enterBusOff (s : State) (d : AbortDraw) :
    (s.enterBusOff d).stb.length = s.stb.length := by simp [State.enterBusOff]

@[simp] theorem State.stb_length_abortSlots (s : State) (p q : Bool) :
    (s.abortSlots p q).stb.length = s.stb.length := by cases q <;> simp [State.abortSlots]

@[simp] theorem enableSelected_length (sel : BitVec 16) (en : Bool) (l : List Sys2Proof.Filter) :
    (enableSelected sel en l).length = l.length := by simp [enableSelected]

theorem sameSizes_storeChange {s u : State} {i : Instr} (h : StoreChange s i u) : SameSizes s u := by
  cases h with
  | reset => exact sameSizes_resetBlock s
  | _ => constructor <;> simp

theorem sameSizes_runInput {i : Input} {s t : State} (h : runInput i s = .next t) : SameSizes s t := by
  obtain ⟨_, _, _, -, -, rfl⟩ | ⟨_, _, c, -, -, hc⟩ | ⟨e, -, -, rfl⟩ | ⟨-, rfl⟩ := runInput_next h
  · exact ⟨rfl, rfl, rfl⟩
  · obtain ⟨u, hu, ht⟩ := exec_storeChange hc
    exact (sameSizes_storeChange hu).of_store ht
  · exact sameSizes_eventEffect e s
  · exact sameSizes_resetBlock s

/-! ### Bit timing and filter contents -/

/-- What the filters compare: all but their enables (10 R28). -/
def filterContents (l : List Sys2Proof.Filter) : List (BitVec 29 × BitVec 29 × MaskType) :=
  l.map fun f => (f.id, f.mask, f.maskType)

theorem filterContents_enableSelected (sel : BitVec 16) (en : Bool) (l : List Sys2Proof.Filter) :
    filterContents (enableSelected sel en l) = filterContents l := by
  apply List.ext_getElem
  · simp [filterContents]
  · intro i _ _
    simp only [filterContents, enableSelected, List.getElem_map, List.getElem_mapIdx]
    split <;> rfl

/-- `t` has the bit timing and the filter contents of `s`. -/
structure SameContents (s t : State) : Prop where
  slow : t.btSlow = s.btSlow
  fast : t.btFast = s.btFast
  filt : filterContents t.filt = filterContents s.filt

theorem SameContents.of_store {s t u : State} (h : SameContents s u) (ht : t.store = u.store) : SameContents s t where
  slow := (congrArg Store.btSlow ht).trans h.slow
  fast := (congrArg Store.btFast ht).trans h.fast
  filt := (congrArg (fun r => filterContents r.filt) ht).trans h.filt

/-- Only BT_WRITE and FILTER_WRITE, both in configuration state, and RESET write them. -/
theorem sameContents_storeChange {s u : State} {i : Instr} (h : StoreChange s i u) (hm : s.mode = .normal)
    (hi : i ≠ .reset) : SameContents s u := by
  cases h with
  | btWrite _ _ hc => rw [hm] at hc; cases hc
  | filterWrite _ _ _ _ hc => rw [hm] at hc; cases hc
  | filterEnable sel en => exact ⟨rfl, rfl, filterContents_enableSelected sel en s.filt⟩
  | reset => exact absurd rfl hi
  | _ => constructor <;> simp

theorem sameContents_runInput {i : Input} {s t : State} (h : runInput i s = .next t) (hr : resets i = false)
    (hm : s.mode = .normal) : SameContents s t := by
  obtain ⟨_, _, _, -, -, rfl⟩ | ⟨w0, rest, c, rfl, hd, hc⟩ | ⟨e, -, -, rfl⟩ | ⟨rfl, -⟩ := runInput_next h
  · exact ⟨rfl, rfl, rfl⟩
  · obtain ⟨u, hu, ht⟩ := exec_storeChange hc
    have hne : c ≠ .reset := by
      rintro rfl
      simp [resets, hd, Except.toOption] at hr
    exact (sameContents_storeChange hu hm hne).of_store ht
  · exact ⟨eventEffect_btSlow e s, eventEffect_btFast e s, by rw [eventEffect_filt]⟩
  · cases hr

end Sys2Proof.Machine
end

section
/-! SUPPORT. The types of spec/10_state.md, registers and frames apart: what a command, an event and a reset do to each
of the two. -/

namespace Sys2Proof.Machine

open Sys2Proof.Config

/-! ### Registers (10 R30 to R32, R37) -/

/-- The registers whose range depends on a check hold a value in it. -/
structure State.RegistersTyped (s : State) : Prop where
  fillPtr : s.fillPtr < s.nstb
  afwl : afwlLegal s.afwl = true
  ewl : 1 ≤ s.ewl.toNat
  ttcCfg : s.ttcLegal s.ttcCfg = true

theorem ttcLegal_of_sameSizes {s t : State} (h : SameSizes s t) (c : TtcConfig) : t.ttcLegal c = s.ttcLegal c := by
  rw [State.ttcLegal, State.ttcLegal, h.nstb, h.params]

theorem State.RegistersTyped.of_same {s t : State} (h : s.RegistersTyped) (hz : SameSizes s t)
    (hf : t.fillPtr = s.fillPtr) (ha : t.afwl = s.afwl) (he : t.ewl = s.ewl) (hc : t.ttcCfg = s.ttcCfg) :
    t.RegistersTyped where
  fillPtr := by rw [hf, hz.nstb]; exact h.fillPtr
  afwl := ha ▸ h.afwl
  ewl := he ▸ h.ewl
  ttcCfg := by rw [hc, ttcLegal_of_sameSizes hz]; exact h.ttcCfg

theorem State.RegistersTyped.of_store {s t : State} (h : s.RegistersTyped) (ht : t.store = s.store) :
    t.RegistersTyped :=
  h.of_same (.of_store ⟨rfl, rfl, rfl⟩ ht) (congrArg Store.fillPtr ht) (congrArg Store.afwl ht)
    (congrArg Store.ewl ht) (congrArg Store.ttcCfg ht)

theorem afwlLegal_drawAfwl (d : ResetDraw) : afwlLegal (drawAfwl d) = true := by
  simp only [afwlLegal, drawAfwl, drawIn, nrx, BitVec.toNat_ofNat, Bool.and_eq_true, decide_eq_true_eq]
  omega

theorem one_le_drawEwl (d : ResetDraw) : 1 ≤ (drawEwl d).toNat := by
  simp only [drawEwl, drawIn, cntMax, BitVec.toNat_ofNat]
  omega

/-- A drawn prescaler is a legal one where there is one (log 4). -/
theorem drawPresc_mem {p : Params} (hp : p.ttcPrescOk ≠ []) (d : ResetDraw) : drawPresc p d ∈ p.ttcPrescOk := by
  have hlt : d.prescIndex % p.ttcPrescOk.length < p.ttcPrescOk.length :=
    Nat.mod_lt _ (List.length_pos_iff.mpr hp)
  rw [drawPresc, List.getD_eq_getElem _ _ hlt]
  exact List.getElem_mem hlt

/-- TTC_CONFIG accepts what a reset draws (70 R173). -/
theorem ttcLegal_drawTtcCfg {s : State} (hp : s.params.ttcPrescOk ≠ []) (d : ResetDraw) :
    s.ttcLegal (drawTtcCfg s.params s.nstb d) = true := by
  have hslot : d.ttcCfg.slotPtr.toNat % (s.nstb + 1) < s.nstb + 1 := Nat.mod_lt _ (Nat.zero_lt_succ _)
  have hbyte := Nat.mod_le (d.ttcCfg.slotPtr.toNat % (s.nstb + 1)) (2 ^ 8)
  have hid : d.ttcCfg.refIde = true ∨ (drawTtcCfg s.params s.nstb d).refId.toNat < 2 ^ 11 := by
    by_cases he : d.ttcCfg.refIde = true
    · exact .inl he
    · simp only [drawTtcCfg, if_neg he, BitVec.toNat_ofNat]
      omega
  simp only [State.ttcLegal, Bool.and_eq_true, Bool.or_eq_true, decide_eq_true_eq, List.contains_iff_mem]
  refine ⟨⟨?_, drawPresc_mem hp d⟩, hid⟩
  simp only [drawTtcCfg, BitVec.toNat_ofNat]
  omega

/-- A reset draws registers of their types where there is an STB slot and a legal prescaler. -/
theorem registersTyped_resetWith {p : Params} {nstb : Nat} (hn : 0 < nstb) (hp : p.ttcPrescOk ≠ []) (nfilt : Nat)
    (d : ResetDraw) : (State.resetWith p nstb nfilt d).RegistersTyped where
  fillPtr := by simpa [State.nstb, State.resetWith] using hn
  afwl := afwlLegal_drawAfwl d
  ewl := one_le_drawEwl d
  ttcCfg := by
    have h := ttcLegal_drawTtcCfg (s := State.resetWith p nstb nfilt d) hp d
    simpa [State.nstb, State.resetWith] using h

/-- A state with typed registers has an STB slot and a legal prescaler, so its reset is typed. -/
theorem State.RegistersTyped.resetBlock {s : State} (h : s.RegistersTyped) : s.resetBlock.RegistersTyped := by
  have hp : s.params.ttcPrescOk ≠ [] := by
    intro he
    have := h.ttcCfg
    simp [State.ttcLegal, he] at this
  exact (registersTyped_resetWith (Nat.zero_lt_of_lt h.fillPtr) hp _ _).of_store rfl

theorem registersTyped_storeChange {s u : State} {i : Instr} (h : StoreChange s i u) (hs : s.RegistersTyped) :
    u.RegistersTyped := by
  have hz := sameSizes_storeChange h
  cases h with
  | reset => exact hs.resetBlock
  | loadStb f k =>
    have hptr : (k + 1) % s.nstb < s.nstb := Nat.mod_lt _ (Nat.zero_lt_of_lt hs.fillPtr)
    exact ⟨hptr.trans_eq hz.nstb.symm, hs.afwl, hs.ewl, (ttcLegal_of_sameSizes hz _).trans hs.ttcCfg⟩
  | rxSetConfig a _ ha => exact ⟨hs.fillPtr, ha, hs.ewl, hs.ttcCfg⟩
  | errSetWarnLimit l hl => exact ⟨hs.fillPtr, hs.afwl, hl, hs.ttcCfg⟩
  | ttcConfig c hc => exact ⟨hs.fillPtr, hs.afwl, hs.ewl, hc⟩
  | _ => exact hs.of_same hz (by simp) (by simp) (by simp) (by simp)

theorem registersTyped_runInput {i : Input} {s t : State} (h : runInput i s = .next t) (hs : s.RegistersTyped) :
    t.RegistersTyped := by
  obtain ⟨_, _, _, -, -, rfl⟩ | ⟨_, _, c, -, -, hc⟩ | ⟨e, -, -, rfl⟩ | ⟨-, rfl⟩ := runInput_next h
  · exact hs.of_store rfl
  · obtain ⟨u, hu, ht⟩ := exec_storeChange hc
    exact (registersTyped_storeChange hu hs).of_store ht
  · exact hs.of_same (sameSizes_eventEffect e s) (eventEffect_fillPtr e s) (eventEffect_afwl e s)
      (eventEffect_ewl e s) (eventEffect_ttcCfg e s)
  · exact hs.resetBlock

/-! ### Frames (00 R15, R17) -/

/-- No frame comes into a slot from `s` to `t`: a slot that holds a frame held it before. -/
def NoFrameComes (s t : State) : Prop :=
  ∀ k, (t.slot k).st ≠ .empty → (s.slot k).st ≠ .empty ∧ (t.slot k).frame = (s.slot k).frame

theorem NoFrameComes.trans {s t u : State} (h : NoFrameComes s t) (h' : NoFrameComes t u) : NoFrameComes s u := by
  intro k hk
  obtain ⟨ht, hf'⟩ := h' k hk
  obtain ⟨hs, hf⟩ := h k ht
  exact ⟨hs, hf'.trans hf⟩

theorem noFrameComes_of_slot {s t : State} (h : t.slot = s.slot) : NoFrameComes s t := by
  intro k hk
  rw [h] at hk ⊢
  exact ⟨hk, rfl⟩

/-- A change of a slot that holds a frame, if it keeps the frame or drops it. -/
theorem noFrameComes_modifySlot {s : State} {k : Nat} {f : Slot → Slot} (hk : (s.slot k).st ≠ .empty)
    (hf : ∀ sl, (f sl).frame = sl.frame) : NoFrameComes s (s.modifySlot k f) := by
  intro j hj
  rw [State.slot_modifySlot] at hj ⊢
  by_cases hc : j = k ∧ k ≤ s.nstb
  · rw [if_pos hc]
    exact ⟨hc.1 ▸ hk, hf _⟩
  · rw [if_neg hc] at hj ⊢
    exact ⟨hj, rfl⟩

theorem noFrameComes_failAttempt {s : State} {k : Nat} (hk : (s.slot k).st ≠ .empty) (c : FailCause) (d : AbortDraw) :
    NoFrameComes s (s.failAttempt k c d) := by
  obtain ⟨-, -, he⟩ | ⟨-, -, -, he⟩ | ⟨-, -, -, he⟩ := s.failAttempt_cases k c d <;> rw [he]
  · exact (noFrameComes_modifySlot (f := Slot.emptied) hk fun _ => rfl).trans (noFrameComes_of_slot (by simp))
  · exact (noFrameComes_modifySlot (f := Slot.emptied) hk fun _ => rfl).trans (noFrameComes_of_slot (by simp))
  · exact noFrameComes_modifySlot hk fun _ => rfl

theorem noFrameComes_endAttempt (s : State) (c : FailCause) (d : AbortDraw) : NoFrameComes s (s.endAttempt c d) := by
  cases hk : s.txSlot with
  | none => exact noFrameComes_of_slot (by simp [State.endAttempt, hk])
  | some k =>
    rw [State.endAttempt_of_txSlot hk]
    exact noFrameComes_failAttempt (by rw [(State.txSlot_some hk).1]; decide) c d

theorem noFrameComes_enterBusOff (s : State) (d : AbortDraw) : NoFrameComes s (s.enterBusOff d) := by
  rw [State.enterBusOff_eq]
  exact (noFrameComes_endAttempt s .busOff d).trans (noFrameComes_of_slot (State.slot_congr rfl rfl))

theorem noFrameComes_errUpdate (s : State) (ev : EvKind) (d : AbortDraw) : NoFrameComes s (s.errUpdate ev d) := by
  have hc : NoFrameComes s (s.errCounted ev) := noFrameComes_of_slot (s.slot_errCounted ev)
  rw [State.errUpdate_eq]
  split
  · exact hc.trans (noFrameComes_enterBusOff _ d)
  · exact hc

theorem noFrameComes_txCompleted {s : State} {k : Nat} (hk : (s.slot k).st ≠ .empty) :
    NoFrameComes s (s.txCompleted k) :=
  (noFrameComes_modifySlot (f := Slot.emptied) hk fun _ => rfl).trans
    (noFrameComes_of_slot (by simp [State.txCompleted]))

theorem noFrameComes_abortSlots (s : State) (p q : Bool) : NoFrameComes s (s.abortSlots p q) := by
  intro k hk
  rw [State.slot_abortSlots] at hk ⊢
  by_cases hc : (if k = 0 then p else q) = true
  · rw [if_pos hc] at hk ⊢
    obtain ⟨-, ha⟩ | ⟨-, ha⟩ | ⟨h, ha⟩ := (s.slot k).abort_cases <;> rw [ha] at hk ⊢
    · exact ⟨hk, rfl⟩
    · exact absurd rfl hk
    · exact ⟨by rw [h]; decide, rfl⟩
  · rw [if_neg hc] at hk ⊢
    exact ⟨hk, rfl⟩

/-- No event brings a frame into a slot: only TX_LOAD does (41 R93). -/
theorem noFrameComes_eventEffect (e : Event) (s : State) : NoFrameComes s (eventEffect e s) := by
  cases e with
  | txStart =>
    simp only [eventEffect, evTxStart]
    cases hk : s.select with
    | none => exact noFrameComes_of_slot rfl
    | some k =>
      have hq := State.queued_of_pending (State.select_eq_some hk).1
      exact noFrameComes_modifySlot (by rw [hq]; decide) fun _ => rfl
  | txSuccess =>
    simp only [eventEffect, evTxSuccess]
    cases hk : s.txSlot with
    | none => exact noFrameComes_of_slot rfl
    | some k =>
      have ht := (State.txSlot_some hk).1
      exact (noFrameComes_txCompleted (by rw [ht]; decide)).trans (noFrameComes_errUpdate _ _ _)
  | txArbLost pos d =>
    have hf : NoFrameComes s ({ s with alc := pos }.setFlag .arbLost) := noFrameComes_of_slot (State.slot_congr rfl rfl)
    exact hf.trans (noFrameComes_endAttempt _ .arbLost d)
  | txError t d =>
    have hf : NoFrameComes s ({ s with lastErrorType := t }.setFlag .busError) :=
      noFrameComes_of_slot (State.slot_congr rfl rfl)
    exact (hf.trans (noFrameComes_endAttempt _ .txError d)).trans (noFrameComes_errUpdate _ (.txErr t) d)
  | rxFrame fr et d =>
    refine (noFrameComes_errUpdate s .rxOk d).trans (noFrameComes_of_slot ?_)
    simp only [eventEffect, evRxFrame]
    (repeat' split) <;> simp
  | rxError t d =>
    have hf : NoFrameComes s ({ s with lastErrorType := t }.setFlag .busError) :=
      noFrameComes_of_slot (State.slot_congr rfl rfl)
    exact hf.trans (noFrameComes_errUpdate _ (.rxErr t) d)
  | busOff d => exact noFrameComes_enterBusOff s d
  | busOffRecover => exact noFrameComes_of_slot (State.slot_congr rfl rfl)
  | clkTick =>
    refine noFrameComes_of_slot (State.slot_congr ?_ ?_) <;> simp only [eventEffect, evClkTick] <;>
      (repeat' split) <;> simp

/-- Every frame held has the data length of its header, and a received one is well-formed. -/
structure State.FramesTyped (s : State) : Prop where
  slots : ∀ k, (s.slot k).st ≠ .empty → (s.slot k).frame.lengthOk = true
  rx : ∀ e ∈ s.rx, frameLegal e.frame = true

theorem State.FramesTyped.of_noFrameComes {s t : State} (h : s.FramesTyped) (hf : NoFrameComes s t)
    (hrx : ∀ e ∈ t.rx, frameLegal e.frame = true) : t.FramesTyped where
  slots k hk := by
    obtain ⟨hk', he⟩ := hf k hk
    rw [he]
    exact h.slots k hk'
  rx := hrx

theorem State.FramesTyped.of_store {s t : State} (h : s.FramesTyped) (ht : t.store = s.store) : t.FramesTyped := by
  refine h.of_noFrameComes (noFrameComes_of_slot (State.slot_congr (congrArg Store.ptb ht) (congrArg Store.stb ht))) ?_
  rw [show t.rx = s.rx from congrArg Store.rx ht]
  exact h.rx

theorem State.slot_resetBlock (s : State) (k : Nat) : s.resetBlock.slot k = emptySlot := by
  cases k with
  | zero => rfl
  | succ j =>
    rw [State.slot_succ]
    exact List.getElem?_getD_replicate_default_eq (d := emptySlot) s.stb.length j

theorem framesTyped_resetBlock (s : State) : s.resetBlock.FramesTyped where
  slots k hk := absurd (by rw [State.slot_resetBlock]; rfl) hk
  rx _ he := by simp [State.resetBlock, State.resetWith] at he

/-- What a reception can leave in the FIFO: the frames there were, and the arrival. -/
theorem mem_rx_storeFrame {s : State} {e x : RxFrame} (h : x ∈ (s.storeFrame e).rx) : x ∈ s.rx ∨ x = e := by
  obtain ⟨-, hr, -⟩ | ⟨-, -, hr, -⟩ | ⟨-, -, hr, -⟩ := s.storeFrame_cases e <;> rw [hr] at h
  · simpa using h
  · exact .inl h
  · rw [List.mem_append, List.mem_singleton] at h
    exact h.imp_left List.mem_of_mem_tail

theorem mem_rx_evRxFrame {fr : TxFrame} {et : ErrorType} {d : AbortDraw} {s : State} {x : RxFrame}
    (h : x ∈ (evRxFrame fr et d s).rx) : x ∈ s.rx ∨ x = s.rxEntry fr et := by
  have hrx : (evRxFrame fr et d s).rx =
      if s.accepted fr = true then ((s.errUpdate .rxOk d).storeFrame (s.rxEntry fr et)).rx else s.rx := by
    unfold evRxFrame
    (repeat' split) <;> simp_all
  rw [hrx] at h
  split at h
  · exact (mem_rx_storeFrame h).imp_left fun h => by simpa using h
  · exact .inl h

/-- The frames in the FIFO after an event were there before or arrived with it. -/
theorem mem_rx_eventEffect {e : Event} {s : State} {x : RxFrame} (h : x ∈ (eventEffect e s).rx) :
    x ∈ s.rx ∨ ∃ fr et d, e = .rxFrame fr et d ∧ x.frame = fr := by
  cases e with
  | rxFrame fr et d =>
    obtain h | h := mem_rx_evRxFrame h
    · exact .inl h
    · exact .inr ⟨fr, et, d, rfl, by rw [h]; rfl⟩
  | _ =>
    left
    simp only [eventEffect, evTxStart, evTxSuccess, evTxArbLost, evTxError, evRxError, evBusOff, evBusOffRecover,
      evClkTick] at h
    revert h
    (repeat' split) <;> simp

theorem framesTyped_eventEffect {e : Event} {s : State} (hs : s.FramesTyped) (hc : eventCanOccur e s = true) :
    (eventEffect e s).FramesTyped := by
  refine hs.of_noFrameComes (noFrameComes_eventEffect e s) fun x hx => ?_
  obtain hx | ⟨fr, et, d, rfl, hf⟩ := mem_rx_eventEffect hx
  · exact hs.rx x hx
  · obtain ⟨⟨-, hw⟩, hl⟩ : (s.receiving = true ∧ fr.wellFormed = true) ∧ fr.lengthOk = true := by
      simpa [eventCanOccur, canRxFrame] using hc
    rw [hf, frameLegal, hw, hl]
    rfl

/-- A load puts a frame of the right length into some slot. -/
theorem State.FramesTyped.of_load {s t : State} (hs : s.FramesTyped) {f : TxFrame} (hf : f.lengthOk = true)
    (hslot : ∀ j, t.slot j = s.loadedSlot f ∨ t.slot j = s.slot j) (hrx : t.rx = s.rx) : t.FramesTyped where
  slots j hj := by
    obtain h | h := hslot j <;> rw [h] at hj ⊢
    · exact hf
    · exact hs.slots j hj
  rx := hrx ▸ hs.rx

theorem framesTyped_storeChange {s u : State} {i : Instr} (h : StoreChange s i u) (hi : i.wf = true)
    (hs : s.FramesTyped) : u.FramesTyped := by
  cases h with
  | reset => exact framesTyped_resetBlock s
  | cfgEnter => exact hs.of_noFrameComes (noFrameComes_endAttempt s _ _) (by simpa using hs.rx)
  | errForceBusOff d =>
    have hd : NoFrameComes s s.countDraw := noFrameComes_of_slot s.slot_countDraw
    exact hs.of_noFrameComes (hd.trans (noFrameComes_enterBusOff _ d)) (by simpa using hs.rx)
  | txAbort p q => exact hs.of_noFrameComes (noFrameComes_abortSlots s p q) hs.rx
  | loadPtb f =>
    refine hs.of_load hi (fun j => ?_) rfl
    cases j with
    | zero => exact .inl rfl
    | succ j => exact .inr rfl
  | loadStb f k =>
    refine hs.of_load hi (fun j => ?_) rfl
    cases j with
    | zero => exact .inr rfl
    | succ j =>
      simp only [State.slot_succ, List.getElem?_set]
      (repeat' split) <;> simp_all
  | rxRelease => exact ⟨hs.slots, fun e he => hs.rx e (List.mem_of_mem_tail he)⟩
  | btWrite p t => exact hs.of_noFrameComes (noFrameComes_of_slot (s.slot_setTiming p t)) (by simpa using hs.rx)
  | _ => exact ⟨hs.slots, hs.rx⟩

theorem framesTyped_runInput {i : Input} {s t : State} (h : runInput i s = .next t) (hs : s.FramesTyped) :
    t.FramesTyped := by
  obtain ⟨_, _, _, -, -, rfl⟩ | ⟨_, _, c, -, hd, hc⟩ | ⟨e, -, hc, rfl⟩ | ⟨-, rfl⟩ := runInput_next h
  · exact hs.of_store rfl
  · obtain ⟨u, hu, ht⟩ := exec_storeChange hc
    exact (framesTyped_storeChange hu (decode_wf hd) hs).of_store ht
  · exact framesTyped_eventEffect hs hc
  · exact framesTyped_resetBlock s

/-! ### Both together -/

/-- The check of the types is typed registers and typed frames. -/
theorem State.typed_iff (s : State) : s.typed = true ↔ s.RegistersTyped ∧ s.FramesTyped := by
  have hslots : (s.slots.all fun sl => sl.isEmpty || sl.frame.lengthOk) = true ↔
      ∀ k, (s.slot k).st ≠ .empty → (s.slot k).frame.lengthOk = true := by
    rw [List.all_eq_true]
    refine (s.forall_slots (p := fun sl => (sl.isEmpty || sl.frame.lengthOk) = true) (by decide)).trans ?_
    simp [or_iff_not_imp_left]
  simp only [State.typed, Bool.and_eq_true, decide_eq_true_eq, hslots, List.all_eq_true]
  constructor
  · rintro ⟨⟨⟨⟨⟨hf, ha⟩, he⟩, hc⟩, hs⟩, hr⟩
    exact ⟨⟨hf, ha, he, hc⟩, hs, hr⟩
  · rintro ⟨⟨hf, ha, he, hc⟩, hs, hr⟩
    exact ⟨⟨⟨⟨⟨hf, ha⟩, he⟩, hc⟩, hs⟩, hr⟩

end Sys2Proof.Machine
end

section
/-! SUPPORT. The preconditions of the events in the terms of 41 R98 to R101, 42 R110 and R111, 43 R117. -/

namespace Sys2Proof.Machine

theorem State.busy_eq_false_iff (s : State) : s.busy = false ↔ ∀ k, (s.slot k).st ≠ .transmitting := by
  rw [← Bool.not_eq_true, s.busy_iff, not_exists]

theorem State.receiving_iff (s : State) : s.receiving = true ↔ s.mode = .normal ∧ s.busOff = false := by
  simp [State.receiving]

/-- EV_TX_START needs an idle node that takes part in the traffic and a pending frame (41 R98). -/
theorem canTxStart_iff (s : State) : canTxStart s = true ↔
    s.mode = .normal ∧ s.busOff = false ∧ (∀ k, (s.slot k).st ≠ .transmitting) ∧ ∃ k, s.pending k = true := by
  simp only [canTxStart, Bool.and_eq_true, beq_iff_eq, Bool.not_eq_true', State.busy_eq_false_iff,
    State.select_isSome_iff, and_assoc]

theorem canTxError_iff (t : ErrorType) (s : State) :
    canTxError t s = true ↔ (∃ k, (s.slot k).st = .transmitting) ∧ t ≠ .none := by
  simp only [canTxError, Bool.and_eq_true, State.busy_iff, bne_iff_ne]

theorem canRxFrame_iff (fr : TxFrame) (s : State) : canRxFrame fr s = true ↔
    s.mode = .normal ∧ s.busOff = false ∧ fr.wellFormed = true ∧ fr.data.length = dataLen fr.dlc fr.fdf fr.rtr := by
  simp only [canRxFrame, TxFrame.lengthOk, Bool.and_eq_true, State.receiving_iff, beq_iff_eq, and_assoc]

theorem canRxError_iff (t : ErrorType) (s : State) :
    canRxError t s = true ↔ s.mode = .normal ∧ s.busOff = false ∧ t ≠ .none := by
  simp only [canRxError, Bool.and_eq_true, State.receiving_iff, bne_iff_ne, and_assoc]

theorem canBusOff_iff (s : State) : canBusOff s = true ↔ s.mode = .normal ∧ s.busOff = false := by
  simp [canBusOff]

/-- An event has its effect where its precondition holds, and is refused where it fails (00 R12). -/
theorem runEvent_of_iff {e : Event} {s : State} {can : Prop} (h : eventCanOccur e s = true ↔ can) :
    (can → runEvent e s = .next (eventEffect e s)) ∧ (¬ can → runEvent e s = .refused .eventCannotOccur) :=
  ⟨fun hc => if_pos (h.mpr hc), fun hc => if_neg fun he => hc (h.mp he)⟩

end Sys2Proof.Machine
end

section
/-! SUPPORT. TX_LOAD check by check (41 R93, 60 R163). -/

namespace Sys2Proof.Machine

theorem execTxLoad_of_config {s : State} (h : s.mode = .config) (buf : TxBuffer) (f : TxFrame) :
    execTxLoad buf f s = .next (s.fail .configError) := by
  simp [execTxLoad, h]

theorem execTxLoad_of_malformed {f : TxFrame} (h : f.wellFormed = false) (buf : TxBuffer) (s : State) :
    execTxLoad buf f s = .next (s.fail .configError) := by
  simp [execTxLoad, h]

/-- A load that passes the checks on mode and frame is decided by the buffer (41 R93). -/
theorem execTxLoad_of_wellFormed {s : State} {f : TxFrame} (hm : s.mode = .normal) (hw : f.wellFormed = true)
    (buf : TxBuffer) : execTxLoad buf f s = .next (s.load buf f) := by
  simp [execTxLoad, hm, hw]

theorem State.load_ptb_of_occupied {s : State} (h : s.ptb.st ≠ .empty) (f : TxFrame) :
    s.load .ptb f = s.fail .bufferFull := by
  simp [State.load, h]

theorem State.load_ptb_of_empty {s : State} (h : s.ptb.st = .empty) (f : TxFrame) :
    s.load .ptb f = { s with ptb := s.loadedSlot f, nextSeq := s.nextSeq + 1 }.respond .ok [] := by
  simp [State.load, h]

theorem State.load_stb_of_full {s : State} (h : ∀ sl ∈ s.stb, sl.st ≠ .empty) (f : TxFrame) :
    s.load .stb f = s.fail .bufferFull := by
  simp [State.load, s.stbTarget_eq_none_iff.mpr h]

end Sys2Proof.Machine
end

section
/-! SUPPORT. Every legal register value is drawn by some raw draw (70 R173, log 4). -/

namespace Sys2Proof.Machine

open Sys2Proof.Config

/-- The raw draw that leaves the given values: the inverse of what `Machine/Draws.lean` does to a draw. -/
def drawFor (p : Params) (slow fast : BitTiming) (filt : List Sys2Proof.Filter) (opt : TxOptions) (afwl : BitVec 4)
    (policy : RxPolicy) (ewl : BitVec 8) (cfg : TtcConfig) (ie : BitVec 14) : ResetDraw where
  btSlow := slow
  btFast := fast
  filt := filt
  txOpt := opt
  afwl := afwl.toNat - 1
  rxPolicy := policy
  ewl := ewl.toNat - 1
  ttcCfg := cfg
  prescIndex := p.ttcPrescOk.idxOf cfg.presc
  ie := ie

/-- Every value of the range `1..hi` is drawn. -/
theorem drawIn_pred {hi v : Nat} (h1 : 1 ≤ v) (h2 : v ≤ hi) : drawIn hi (v - 1) = v := by
  rw [drawIn, Nat.mod_eq_of_lt (by omega)]
  omega

theorem drawAfwl_eq {d : ResetDraw} {a : BitVec 4} (h1 : 1 ≤ a.toNat) (h2 : a.toNat ≤ 8)
    (hd : d.afwl = a.toNat - 1) : drawAfwl d = a := by
  rw [drawAfwl, hd, drawIn_pred (hi := nrx) h1 h2, BitVec.ofNat_toNat, BitVec.setWidth_eq]

theorem drawEwl_eq {d : ResetDraw} {l : BitVec 8} (h : l ≠ 0) (hd : d.ewl = l.toNat - 1) : drawEwl d = l := by
  have h1 : l.toNat ≠ 0 := fun h0 => h (BitVec.eq_of_toNat_eq h0)
  have h2 : l.toNat ≤ cntMax := Nat.le_of_lt_succ l.isLt
  rw [drawEwl, hd, drawIn_pred (by omega) h2, BitVec.ofNat_toNat, BitVec.setWidth_eq]

theorem drawPresc_eq {p : Params} {d : ResetDraw} {v : BitVec 16} (h : v ∈ p.ttcPrescOk)
    (hd : d.prescIndex = p.ttcPrescOk.idxOf v) : drawPresc p d = v := by
  have hlt := List.idxOf_lt_length_of_mem h
  rw [drawPresc, hd, Nat.mod_eq_of_lt hlt, List.getD_eq_getElem _ _ hlt, List.getElem_idxOf]

/-- A reset draws every TTC configuration that TTC_CONFIG accepts. -/
theorem drawTtcCfg_eq {p : Params} {nstb : Nat} {d : ResetDraw} {c : TtcConfig} (hs : c.slotPtr.toNat ≤ nstb)
    (hp : drawPresc p d = c.presc) (hi : c.refIde = false → c.refId.toNat < 2 ^ 11) (hd : d.ttcCfg = c) :
    drawTtcCfg p nstb d = c := by
  have hslot : BitVec.ofNat 8 (c.slotPtr.toNat % (nstb + 1)) = c.slotPtr := by
    rw [Nat.mod_eq_of_lt (Nat.lt_succ_of_le hs), BitVec.ofNat_toNat, BitVec.setWidth_eq]
  have hid : (if c.refIde then c.refId else BitVec.ofNat 29 (c.refId.toNat % 2 ^ 11)) = c.refId := by
    by_cases he : c.refIde = true
    · rw [if_pos he]
    · rw [if_neg he, Nat.mod_eq_of_lt (hi (by simpa using he)), BitVec.ofNat_toNat, BitVec.setWidth_eq]
  rw [drawTtcCfg, hd, hp, hslot, hid]

theorem drawFilters_eq {nfilt : Nat} {d : ResetDraw} (h : d.filt.length = nfilt) : drawFilters nfilt d = d.filt := by
  apply List.ext_getElem
  · simp [drawFilters, h]
  · intro i _ hi
    simp [drawFilters, hi]

end Sys2Proof.Machine
end

section
/-! The statements of spec/00_scope.md settled. -/

namespace Sys2Proof.Machine

/-- Settles O11: every input keeps the registers' types and the frames' lengths. -/
theorem stepKeepsStatesTyped : Obligations.StepKeepsStatesTyped := by
  intro s t hs _ h
  obtain ⟨i, l, d, hr⟩ := step_next h
  obtain ⟨hreg, hfr⟩ := s.typed_iff.mp hs
  exact t.typed_iff.mpr
    ⟨registersTyped_runInput hr (hreg.of_store rfl), framesTyped_runInput hr (hfr.of_store rfl)⟩

/-- Settles O7: each event's precondition is the check the model makes. -/
theorem eventsOccurExactlyUnderTheirPreconditions : Obligations.EventsOccurExactlyUnderTheirPreconditions := by
  intro e s
  cases e with
  | txStart => exact runEvent_of_iff ((canTxStart_iff s).trans (by simp only [State.pending_iff]))
  | txSuccess => exact runEvent_of_iff s.busy_iff
  | txArbLost pos d => exact runEvent_of_iff s.busy_iff
  | txError t d => exact runEvent_of_iff (canTxError_iff t s)
  | rxFrame fr et d => exact runEvent_of_iff ((canRxFrame_iff fr s).trans (by rw [TxFrame.wellFormed_iff]))
  | rxError t d => exact runEvent_of_iff (canRxError_iff t s)
  | busOff d => exact runEvent_of_iff (canBusOff_iff s)
  | busOffRecover => exact runEvent_of_iff Iff.rfl
  | clkTick => exact runEvent_of_iff ⟨fun _ => trivial, fun _ => rfl⟩

/-- Settles O12: each of the four ways an input has a next state keeps the sizes. -/
theorem parametersAndSizesNeverChange : Obligations.ParametersAndSizesNeverChange := by
  intro s t h
  obtain ⟨i, l, d, hr⟩ := step_next h
  obtain ⟨hp, hs, hf⟩ := sameSizes_runInput hr
  exact ⟨hp, hs, hf⟩

/-- Settles O17: the commands that write bit timing or filter contents check for configuration state. -/
theorem timingAndFilterContentsChangeOnlyInConfig : Obligations.TimingAndFilterContentsChangeOnlyInConfig := by
  intro i s t h hr hm
  obtain ⟨hs, hf, hc⟩ := sameContents_runInput h hr hm
  exact ⟨hs, hf, hc⟩

/-- Settles O29: the raw draw of each register is the value less what the draw adds to it. -/
theorem resetCanDrawEveryLegalValue : Obligations.ResetCanDrawEveryLegalValue := by
  intro p nstb nfilt slow fast filt opt afwl policy ewl cfg ie hfilt ha1 ha8 hewl hslot hpresc hid
  let d := drawFor p slow fast filt opt afwl policy ewl cfg ie
  have hf : drawFilters nfilt d = filt := drawFilters_eq (d := d) hfilt
  have ha : drawAfwl d = afwl := drawAfwl_eq ha1 ha8 rfl
  have he : drawEwl d = ewl := drawEwl_eq hewl rfl
  have hc : drawTtcCfg p nstb d = cfg := drawTtcCfg_eq hslot (drawPresc_eq hpresc rfl) hid rfl
  refine ⟨d, ?_⟩
  rw [State.resetWith, hf, ha, he, hc]
  rfl

/-- Settles O30: mode, frame and buffer are checked in this order. -/
theorem transmitLoadChecksInOrderAndFillsThePtb : Obligations.TransmitLoadChecksInOrderAndFillsThePtb := by
  intro buf f s
  simp only [← TxFrame.wellFormed_iff]
  refine ⟨fun hm => execTxLoad_of_config hm buf f, fun _ hw => execTxLoad_of_malformed (by simpa using hw) buf s,
    fun hm hw hp => ?_, fun hm hw hs => ?_, fun hm hw hp => ?_⟩
  · exact (execTxLoad_of_wellFormed hm hw .ptb).trans (congrArg _ (State.load_ptb_of_occupied hp f))
  · exact (execTxLoad_of_wellFormed hm hw .stb).trans (congrArg _ (State.load_stb_of_full hs f))
  · exact (execTxLoad_of_wellFormed hm hw .ptb).trans (congrArg _ (State.load_ptb_of_empty hp f))

end Sys2Proof.Machine
end

section
/-! SUPPORT. What a command, an event and a reset do to the invariants I1 to I10 of spec/10_state.md R46. -/

namespace Sys2Proof.Machine

open Sys2Proof.Config

/-! ### The fields the invariants speak of -/

/-- What 10 R46 constrains: the transmit buffers and their enables, the stamp counter, mode and bus-off, the FIFO and
its overflow flag. I9 holds by the width of the counters. -/
structure Guarded where
  ptb : Slot
  stb : List Slot
  nextSeq : Nat
  mode : Mode
  busOff : Bool
  rx : List RxFrame
  overflow : Bool
  ptbEn : Bool
  stbEn : StbEnable

/-- The constrained part of a state. -/
def State.guarded (s : State) : Guarded :=
  ⟨s.ptb, s.stb, s.nextSeq, s.mode, s.busOff, s.rx, s.flag .rxOverflow, s.ptbEn, s.stbEn⟩

theorem State.Inv.of_guarded {s t : State} (h : s.Inv) (ht : t.guarded = s.guarded) : t.Inv := by
  obtain ⟨hp, hs, hn, hm, hb, hr, hf, hpe, hse⟩ := Guarded.mk.inj ht
  exact h.of_same hp hs hn hm hb hr hf hpe hse

theorem State.guarded_setFlagIf {g : Flag} (hg : Flag.rxOverflow.bit ≠ g.bit) (s : State) (c : Bool) :
    (s.setFlagIf c g).guarded = s.guarded := by
  have hf : (s.setFlagIf c g).flag .rxOverflow = s.flag .rxOverflow := by
    rw [State.flag, State.flags_setFlagIf, decide_eq_false hg, Bool.and_false, Bool.or_false, State.flag]
  simp [State.guarded, hf]

theorem State.guarded_setFlag {g : Flag} (hg : Flag.rxOverflow.bit ≠ g.bit) (s : State) :
    (s.setFlag g).guarded = s.guarded :=
  s.guarded_setFlagIf hg true

/-- A tick can latch the two TTC flags only (44 R130). -/
theorem State.guarded_ttcCompare (s : State) : s.ttcCompare.guarded = s.guarded := by
  simp [State.guarded, State.flag_ttcCompare_rxOverflow]

/-- STATUS_CLEAR spares RX_OVERFLOW (45 R138). -/
theorem State.guarded_clearable (s : State) (mask : BitVec 14) :
    ({ s with flags := s.flags &&& ~~~(mask &&& clearable) } : State).guarded = s.guarded := by
  have hc : clearable.getLsbD Flag.rxOverflow.bit = false := by decide
  have hf : ({ s with flags := s.flags &&& ~~~(mask &&& clearable) } : State).flag .rxOverflow =
      s.flag .rxOverflow := by
    rw [State.flag, BitVec.getLsbD_and, BitVec.getLsbD_not, BitVec.getLsbD_and, hc, Bool.and_false]
    exact Bool.and_true _
  simp [State.guarded, hf]

/-! ### Commands (40 to 45) -/

theorem State.Inv.respond {s : State} (h : s.Inv) (c : ResultCode) (w : List Word) : (s.respond c w).Inv :=
  h.of_guarded rfl

theorem State.Inv.fail {s : State} (h : s.Inv) (c : ResultCode) : (s.fail c).Inv := h.respond c []

/-- A command that may fail the check `c` keeps the invariants if it does where it passes. -/
theorem State.Inv.of_check {s t : State} {c : Prop} [Decidable c] {r : ResultCode} (h : s.Inv) (ht : ¬ c → t.Inv) :
    (if c then s.fail r else t).Inv := by
  by_cases hc : c
  · rw [if_pos hc]; exact h.fail r
  · rw [if_neg hc]; exact ht hc

theorem State.Inv.cfgEnter {s : State} (h : s.Inv) (d : AbortDraw) :
    ({ s.endAttempt .configEntry d with mode := .config } : State).Inv :=
  (h.endAttempt .configEntry d).of_idle (State.idle_of_endAttempt h.inv1 _ _) rfl rfl rfl rfl rfl rfl rfl

theorem State.Inv.cfgLeave {s : State} (h : s.Inv) : ({ s with mode := .normal } : State).Inv :=
  h.of_buffers rfl rfl rfl (fun _ hb => ⟨rfl, hb⟩) h.fifo h.overflow h.ptbEn h.stbEn

/-- The slots of a load into the STB (41 R93). -/
theorem State.slot_set_loadedSlot {s t : State} {k : Nat} (hk : k < s.stb.length) (f : TxFrame) (hp : t.ptb = s.ptb)
    (hs : t.stb = s.stb.set k (s.loadedSlot f)) (j : Nat) :
    t.slot j = if j = k + 1 then s.loadedSlot f else s.slot j := by
  cases j with
  | zero => exact hp
  | succ j =>
    simp only [State.slot_succ, hs, List.getElem?_set, Nat.add_right_cancel_iff, eq_comm (a := k)]
    by_cases hj : j = k
    · simp [hj, hk]
    · simp [hj]

theorem State.Inv.load {s : State} (h : s.Inv) {f : TxFrame} (hw : f.wellFormed = true) (buf : TxBuffer) :
    (s.load buf f).Inv := by
  cases buf with
  | ptb =>
    by_cases he : s.ptb.st = .empty
    · rw [State.load_ptb_of_empty he]
      refine State.Inv.respond ?_ .ok []
      exact h.of_load (k := 0) he hw (fun j => by cases j <;> rfl) rfl rfl rfl rfl rfl rfl rfl
    · rw [State.load_ptb_of_occupied he]
      exact h.fail _
  | stb =>
    cases hk : s.stbTarget with
    | none => simpa only [State.load, hk] using h.fail .bufferFull
    | some k =>
      obtain ⟨_, -, -, hlt, he, -⟩ := State.stbTarget_eq_some hk
      simp only [State.load, hk]
      refine State.Inv.respond ?_ .ok []
      exact h.of_load he hw (State.slot_set_loadedSlot hlt f rfl rfl) rfl rfl rfl rfl rfl rfl rfl

/-- TX_ENABLE enables a buffer only where it holds a frame (41 R95). -/
theorem inv_execTxEnable {sel : TxSelect} {s t : State} (h : s.Inv) (ht : execTxEnable sel s = .next t) : t.Inv := by
  have hstb : ∀ e : StbEnable, (if s.stb.all Slot.isEmpty then s else { s with stbEn := e }).Inv := by
    intro e
    by_cases he : s.stb.all Slot.isEmpty = true
    · rw [if_pos he]; exact h
    · rw [if_neg he]
      rw [State.stb_all_empty_iff, not_forall] at he
      exact h.of_buffers rfl rfl rfl (fun hm hb => ⟨hm, hb⟩) h.fifo h.overflow h.ptbEn fun _ => he
  cases ht
  refine h.of_check fun _ => ?_
  cases sel with
  | ptb =>
    refine State.Inv.respond ?_ .ok []
    by_cases he : s.ptb.isEmpty = true
    · rw [if_pos he]; exact h
    · rw [if_neg he]
      rw [Slot.isEmpty_iff] at he
      exact h.of_buffers rfl rfl rfl (fun hm hb => ⟨hm, hb⟩) h.fifo h.overflow (fun _ => he) h.stbEn
  | stbOne => exact (hstb .one).respond .ok []
  | stbAll => exact (hstb .all).respond .ok []

/-- The STB's book-keeping leaves an enable on only over a frame (41 R88). -/
theorem State.exists_of_stbEn_stbBook {s : State} (h : s.stbBook.stbEn ≠ .off) :
    ∃ j, (s.stbBook.slot (j + 1)).st ≠ .empty := by
  by_contra hne
  simp only [State.slot_stbBook, not_exists, not_not] at hne
  rw [State.stbBook_stbEn, if_pos (s.stb_all_empty_iff.mpr hne)] at h
  exact h rfl

/-- The block after a TX_ABORT, less TX_ABORTED and the response: slots and enables (41 R88, R96). -/
def State.aborted (s : State) (p q : Bool) : State :=
  { s.abortSlots p q with ptbEn := s.ptbEn && !(p && (s.abortSlots p q).ptb.isEmpty) }.stbBook

theorem execTxAbort_eq (p q : Bool) (s : State) : execTxAbort p q s =
    .next (((s.aborted p q).setFlagIf (s.abortRemovesAny p q) .txAborted).respond .ok []) := by
  have he : (if p && (s.abortSlots p q).ptb.isEmpty then { s.abortSlots p q with ptbEn := false }
      else s.abortSlots p q) =
        { s.abortSlots p q with ptbEn := s.ptbEn && !(p && (s.abortSlots p q).ptb.isEmpty) } := by
    cases p && (s.abortSlots p q).ptb.isEmpty
    · simp; rfl
    · simp
  rw [execTxAbort, State.aborted, ← he]

/-- Frames are removed and requests noted; an enable ends with the last frame of its buffer. -/
theorem State.Inv.aborted {s : State} (h : s.Inv) (p q : Bool) : (s.aborted p q).Inv := by
  have hslot : (s.aborted p q).slot = (s.abortSlots p q).slot :=
    State.slot_congr (by simp [State.aborted]) (by simp [State.aborted])
  obtain ⟨hkept, hsend, hreq⟩ := State.SlotsShrink_abortSlots h p q
  rw [← hslot] at hkept hsend hreq
  refine h.of_shrink ⟨hkept, hsend, hreq⟩ (by simp [State.aborted]) (fun k hk => ?_) ?_ ?_ (fun hp => ?_)
    (fun he => ?_)
  · simpa [State.aborted] using h.busyNormal k (hsend k hk)
  · simpa [State.aborted] using h.fifo
  · simpa [State.aborted, State.flag] using h.overflow
  · rw [← State.slot_zero, hslot]
    obtain ⟨he, hsel⟩ : s.ptbEn = true ∧ (p = false ∨ (s.abortSlots p q).ptb.st ≠ .empty) := by
      simpa [State.aborted] using hp
    obtain rfl | hne := hsel
    · exact h.ptbEn he
    · exact hne
  · unfold State.aborted at he ⊢
    exact State.exists_of_stbEn_stbBook he

/-- RX_RELEASE takes the oldest frame and the overflow flag (42 R108). -/
theorem inv_execRxRelease {s t : State} (h : s.Inv) (ht : execRxRelease s = .next t) : t.Inv := by
  cases ht
  have hfifo := h.fifo
  cases hr : s.rx with
  | nil => exact h.fail .empty
  | cons e rest =>
    rw [hr, List.length_cons] at hfifo
    have hf : ({ s with rx := rest }.clearFlag .rxOverflow).flag .rxOverflow = false := by
      rw [State.flag, State.flags_clearFlag]
      simp
    have hu : ({ s with rx := rest }.clearFlag .rxOverflow).Inv :=
      h.of_buffers rfl rfl rfl (fun hm hb => ⟨hm, hb⟩) (Nat.le_of_succ_le hfifo) (by simp [hf]) h.ptbEn h.stbEn
    exact hu.respond .ok []

theorem inv_execErrForceBusOff {s t : State} (h : s.Inv) (ht : execErrForceBusOff s = .next t) : t.Inv := by
  have hd : s.countDraw.Inv := h.of_guarded (by simp [State.guarded, State.flag])
  cases ht
  refine h.of_check fun _ => State.Inv.respond ?_ .ok []
  split
  · exact h
  · exact hd.enterBusOff _

/-! ### Reset (70 R173) -/

theorem State.slot_resetWith (p : Params) (nstb nfilt : Nat) (d : ResetDraw) (k : Nat) :
    (State.resetWith p nstb nfilt d).slot k = emptySlot := by
  have hslot : (State.resetWith p nstb nfilt d).slot = (State.resetWith p nstb nfilt d).resetBlock.slot :=
    State.slot_congr rfl (by simp [State.resetBlock, State.resetWith])
  rw [hslot, State.slot_resetBlock]

/-- After a reset every slot is Empty, the FIFO is empty and no enable is on. -/
theorem inv_resetWith (p : Params) (nstb nfilt : Nat) (d : ResetDraw) : (State.resetWith p nstb nfilt d).Inv := by
  have hst : ∀ k, ((State.resetWith p nstb nfilt d).slot k).st = .empty := fun k => by rw [State.slot_resetWith]; rfl
  have hidle : ∀ k, ((State.resetWith p nstb nfilt d).slot k).st ≠ .transmitting := fun k => by rw [hst]; decide
  exact {
    one := fun j _ hj => absurd hj (hidle j)
    busyNormal := fun k hk => absurd hk (hidle k)
    fifo := Nat.zero_le 8
    overflow := fun ho => by simp [State.flag, State.resetWith] at ho
    ptbEn := fun hp => absurd hp Bool.false_ne_true
    stbEn := fun he => absurd rfl he
    abort := fun k hk => by rw [State.slot_resetWith] at hk; cases hk
    stamps := fun j _ hj => absurd (hst j) hj
    below := fun k hk => absurd (hst k) hk
    frames := fun k hk => absurd (hst k) hk }

theorem inv_resetBlock (s : State) : s.resetBlock.Inv :=
  (inv_resetWith s.params s.stb.length s.filt.length (resetDraw s.draws)).of_guarded rfl

/-- The commands that write a constrained field keep the invariants by the lemmas above; the others write none. -/
theorem inv_exec {i : Instr} {s t : State} (h : s.Inv) (ht : exec i s = .next t) : t.Inv := by
  cases i with
  | setWorkMode | setTxOptions | btRead | txStatusRead | rxStatusRead | errRead | ttcRead | statusRead
  | intEnable => cases ht; exact h.of_guarded rfl
  | filterRead | rxPeek | ttcEnable =>
    cases ht
    refine h.of_guarded ?_
    (repeat' split) <;> rfl
  | filterEnable | rxSetConfig | errSetWarnLimit | ttcConfig => cases ht; exact h.of_check fun _ => h.of_guarded rfl
  | filterWrite | errClearCounters => cases ht; exact h.of_check fun _ => h.of_check fun _ => h.of_guarded rfl
  | btWrite p b =>
    cases ht
    exact h.of_check fun _ => h.of_check fun _ => h.of_guarded (by cases p <;> rfl)
  | statusClear mask => cases ht; exact State.Inv.respond (h.of_guarded (s.guarded_clearable mask)) .ok []
  | cfgEnter => cases ht; exact (h.cfgEnter _).respond .ok []
  | cfgLeave => cases ht; exact h.cfgLeave.respond .ok []
  | reset => cases ht; exact (inv_resetBlock s).respond .ok []
  | txLoad buf f => cases ht; exact h.of_check fun _ => h.of_check fun hw => h.load (by simpa using hw) buf
  | txEnable sel => exact inv_execTxEnable h ht
  | txAbort p q =>
    rw [exec, execTxAbort_eq] at ht
    cases ht
    exact State.Inv.respond ((h.aborted p q).of_guarded (State.guarded_setFlagIf (by decide) _ _)) .ok []
  | rxRelease => exact inv_execRxRelease h ht
  | errForceBusOff => exact inv_execErrForceBusOff h ht

/-! ### Events (41 to 44) -/

theorem State.Inv.evTxStart {s : State} (h : s.Inv) (hc : canTxStart s = true) : (evTxStart s).Inv := by
  obtain ⟨hm, hb, hidle, -⟩ := (canTxStart_iff s).mp hc
  unfold Machine.evTxStart
  cases hk : s.select with
  | none => exact h
  | some k => exact h.started (State.queued_of_pending (State.select_eq_some hk).1) hidle hm hb

theorem State.Inv.evTxSuccess {s : State} (h : s.Inv) : (evTxSuccess s).Inv := by
  unfold Machine.evTxSuccess
  cases hk : s.txSlot with
  | none => exact h
  | some k => exact (h.txCompleted (State.txSlot_some hk).1).errUpdate _ _

/-- The last fault and BUS_ERROR are no constrained fields. -/
theorem State.Inv.busError {s : State} (h : s.Inv) (t : ErrorType) :
    ({ s with lastErrorType := t }.setFlag .busError).Inv :=
  h.of_guarded (State.guarded_setFlag (by decide) _)

theorem State.Inv.evRxFrame {s : State} (h : s.Inv) (fr : TxFrame) (et : ErrorType) (d : AbortDraw) :
    (evRxFrame fr et d s).Inv := by
  have he := h.errUpdate .rxOk d
  have hs : (if s.accepted fr then (s.errUpdate .rxOk d).storeFrame (s.rxEntry fr et)
      else s.errUpdate .rxOk d).Inv := by
    split
    · exact he.storeFrame _
    · exact he
  unfold Machine.evRxFrame
  simp only
  split
  · exact hs.of_guarded rfl
  · exact hs

theorem State.Inv.evClkTick {s : State} (h : s.Inv) : (evClkTick s).Inv := by
  unfold Machine.evClkTick
  split
  · exact h
  · split
    · exact h.of_guarded (State.guarded_ttcCompare _)
    · exact h.of_guarded rfl

theorem inv_eventEffect {e : Event} {s : State} (h : s.Inv) (hc : eventCanOccur e s = true) :
    (eventEffect e s).Inv := by
  cases e with
  | txStart => exact h.evTxStart hc
  | txSuccess => exact h.evTxSuccess
  | txArbLost pos d =>
    exact State.Inv.endAttempt (h.of_guarded (State.guarded_setFlag (by decide) { s with alc := pos })) .arbLost d
  | txError t d => exact ((h.busError t).endAttempt .txError d).errUpdate _ d
  | rxFrame fr et d => exact h.evRxFrame fr et d
  | rxError t d => exact (h.busError t).errUpdate _ d
  | busOff d => exact h.enterBusOff d
  | busOffRecover =>
    exact h.of_buffers rfl rfl rfl (fun hm _ => ⟨hm, rfl⟩) h.fifo h.overflow h.ptbEn h.stbEn
  | clkTick => exact h.evClkTick

/-! ### Every input -/

theorem inv_runInput {i : Input} {s t : State} (h : s.Inv) (ht : runInput i s = .next t) : t.Inv := by
  obtain ⟨_, _, _, -, -, rfl⟩ | ⟨_, _, c, -, -, he⟩ | ⟨e, -, hc, rfl⟩ | ⟨-, rfl⟩ := runInput_next ht
  · exact h.fail .illegal
  · exact inv_exec h he
  · exact inv_eventEffect h hc
  · exact inv_resetBlock s

end Sys2Proof.Machine
end

section
/-! SUPPORT. The reset state is typed, and what an event leaves alone, as one equation. -/

namespace Sys2Proof.Machine

open Sys2Proof.Config

theorem framesTyped_resetWith (p : Params) (nstb nfilt : Nat) (d : ResetDraw) :
    (State.resetWith p nstb nfilt d).FramesTyped where
  slots k hk := absurd (by rw [State.slot_resetWith]; rfl) hk
  rx _ he := absurd he List.not_mem_nil

theorem typed_resetWith {p : Params} {nstb : Nat} (hn : 0 < nstb) (hp : paramsUsable p = true) (nfilt : Nat)
    (d : ResetDraw) : (State.resetWith p nstb nfilt d).typed = true :=
  (State.typed_iff _).mpr
    ⟨registersTyped_resetWith hn (by simpa [paramsUsable] using hp) nfilt d, framesTyped_resetWith p nstb nfilt d⟩

theorem runEvent_next {e : Event} {s t : State} (h : runEvent e s = .next t) : t = eventEffect e s := by
  unfold runEvent at h
  split at h
  · cases h; rfl
  · cases h

/-- The response, the modes and the configuration registers are none of an event's (10 R24, 41 to 44). -/
theorem eventEffect_frame (e : Event) (s : State) : eventEffect e s =
    { s with
      ptb := (eventEffect e s).ptb, stb := (eventEffect e s).stb, ptbEn := (eventEffect e s).ptbEn,
      stbEn := (eventEffect e s).stbEn, rx := (eventEffect e s).rx, recCount := (eventEffect e s).recCount,
      tecCount := (eventEffect e s).tecCount, busOff := (eventEffect e s).busOff,
      lastErrorType := (eventEffect e s).lastErrorType, alc := (eventEffect e s).alc,
      timer := (eventEffect e s).timer, prescCnt := (eventEffect e s).prescCnt,
      released := (eventEffect e s).released, flags := (eventEffect e s).flags } := by
  apply State.ext
  case resp => exact eventEffect_resp e s
  case mode => exact eventEffect_mode e s
  case workMode => exact eventEffect_workMode e s
  case btSlow => exact eventEffect_btSlow e s
  case btFast => exact eventEffect_btFast e s
  case filt => exact eventEffect_filt e s
  case txOpt => exact eventEffect_txOpt e s
  case afwl => exact eventEffect_afwl e s
  case rxPolicy => exact eventEffect_rxPolicy e s
  case ewl => exact eventEffect_ewl e s
  case ttcCfg => exact eventEffect_ttcCfg e s
  case ie => exact eventEffect_ie e s
  case fillPtr => exact eventEffect_fillPtr e s
  case nextSeq => exact eventEffect_nextSeq e s
  case ttcEn => exact eventEffect_ttcEn e s
  case params => exact eventEffect_params e s
  case inputs => exact eventEffect_inputs e s
  case draws => exact eventEffect_draws e s
  all_goals rfl

end Sys2Proof.Machine
end

section
/-! The statements of spec/10_state.md settled. -/

namespace Sys2Proof.Machine

/-- Settles O10: a step is what the next input does to a state that differs in the model's own fields only. -/
theorem stepKeepsTheInvariants : Obligations.StepKeepsTheInvariants := by
  intro s t hs h
  obtain ⟨i, l, d, hr⟩ := step_next h
  have hinv : ({ s with inputs := l, draws := d } : State).Inv := (s.inv_iff.mp hs).of_guarded rfl
  exact t.inv_iff.mpr (inv_runInput hinv hr)

/-- Settles O16: field by field, an event's effect keeps the fields named. -/
theorem eventsKeepResponseAndConfiguration : Obligations.EventsKeepResponseAndConfiguration := by
  intro e s t h
  obtain rfl := runEvent_next h
  exact eventEffect_frame e s

/-- Settles O9: the reset state holds no frame, and its registers are drawn in their ranges. -/
theorem resetMeetsTheInvariants : Obligations.ResetMeetsTheInvariants := by
  have hinv (p nstb nfilt d) : (State.resetWith p nstb nfilt d).inv = true :=
    (State.inv_iff _).mpr (inv_resetWith p nstb nfilt d)
  refine ⟨fun p nstb nfilt d => ⟨hinv p nstb nfilt d, fun hn hp => typed_resetWith hn hp nfilt d⟩, ?_, ?_⟩
  · exact hinv defaultParams defaultNstb defaultNfilt (Config.resetDraw 0)
  · exact typed_resetWith (p := defaultParams) (nstb := defaultNstb) (by decide) rfl defaultNfilt (Config.resetDraw 0)

end Sys2Proof.Machine
end

section
/-! SUPPORT. What a step does with a listed transaction (spec/30_encoding.md R69, log 1). -/

namespace Sys2Proof.Machine

theorem nextInput_of_listed {s : State} {i : Input} {more : List Input} (h : s.inputs = i :: more) :
    nextInput s = (i, { s with inputs := more }) := by
  simp only [nextInput, h]

/-- A transaction that is a command's runs that command. -/
theorem runInput_of_decode_ok {w0 : Word} {rest : List Word} {i : Instr} (h : decode (w0 :: rest) = .ok i) (s : State) :
    runInput (.command w0 rest) s = exec i s := by
  simp only [runInput, runTransaction, h]

/-- A transaction that is no command's answers ILLEGAL. -/
theorem runInput_of_decode_error {w0 : Word} {rest : List Word} {e : DecodeError} (h : decode (w0 :: rest) = .error e)
    (s : State) : runInput (.command w0 rest) s = .next (s.fail .illegal) := by
  simp only [runInput, runTransaction, h]

/-- A step from a state within the invariants is what the first listed input does, that input taken off the list. -/
theorem step_of_listed {s : State} {i : Input} {more : List Input} (hi : s.inputs = i :: more) (hs : s.inv = true) :
    step s = runInput i { s with inputs := more } := by
  rw [step_of_inv hs, nextInput_of_listed hi]

end Sys2Proof.Machine
end

section
/-! SUPPORT. Commands that only answer: a response that does not depend on the one before (spec/20_memory.md R53). -/

namespace Sys2Proof.Machine

/-- The command `i` does nothing but answer `answer`. -/
structure AnswersOnly (i : Instr) (answer : State → Response) : Prop where
  exec : ∀ s, exec i s = .next (s.respond (answer s).code (answer s).words)
  again : ∀ s c ws, answer (s.respond c ws) = answer s

/-- The answer of FILTER_READ (40 R85). -/
def State.filterAnswer (s : State) (index : BitVec 4) : Response :=
  match s.filt[index.toNat]? with
  | none => ⟨.configError, []⟩
  | some f => ⟨.ok, filterWords f⟩

/-- The answer of RX_PEEK (42 R107). -/
def State.peekAnswer (s : State) : Response :=
  match s.rx with
  | [] => ⟨.empty, []⟩
  | e :: _ => ⟨.ok, rxFrameWords e⟩

theorem filterRead_answersOnly (index : BitVec 4) : AnswersOnly (.filterRead index) (·.filterAnswer index) where
  exec s := by
    change execFilterRead index s = _
    unfold execFilterRead State.filterAnswer
    cases s.filt[index.toNat]? <;> rfl
  again _ _ _ := rfl

theorem rxPeek_answersOnly : AnswersOnly .rxPeek State.peekAnswer where
  exec s := by
    change execRxPeek s = _
    unfold execRxPeek State.peekAnswer
    cases s.rx <;> rfl
  again _ _ _ := rfl

/-- The read commands and RX_PEEK only answer (20 R53). -/
theorem exists_answersOnly {i : Instr}
    (h : i.opcode ∈ [.btRead, .filterRead, .txStatusRead, .rxPeek, .rxStatusRead, .errRead, .ttcRead, .statusRead]) :
    ∃ answer, AnswersOnly i answer := by
  cases i with
  | btRead p => exact ⟨fun s => ⟨.ok, [(s.timing p).word]⟩, fun _ => rfl, fun _ _ _ => by cases p <;> rfl⟩
  | filterRead index => exact ⟨_, filterRead_answersOnly index⟩
  | txStatusRead => exact ⟨fun s => ⟨.ok, [s.txStatusWord]⟩, fun _ => rfl, fun _ _ _ => rfl⟩
  | rxPeek => exact ⟨_, rxPeek_answersOnly⟩
  | rxStatusRead => exact ⟨fun s => ⟨.ok, [s.rxStatusWord]⟩, fun _ => rfl, fun _ _ _ => rfl⟩
  | errRead => exact ⟨fun s => ⟨.ok, [s.errorWord, 0#24 ++ s.ewl]⟩, fun _ => rfl, fun _ _ _ => rfl⟩
  | ttcRead => exact ⟨fun s => ⟨.ok, [s.ttcWord]⟩, fun _ => rfl, fun _ _ _ => rfl⟩
  | statusRead => exact ⟨fun s => ⟨.ok, [s.statusWord]⟩, fun _ => rfl, fun _ _ _ => rfl⟩
  | _ => simp [Instr.opcode] at h

end Sys2Proof.Machine
end

section
/-! SUPPORT. The words of RX_PEEK hold the whole frame (spec/30_encoding.md R64, spec/42_receive.md R107). -/

namespace Sys2Proof

theorem bitAt_eq_of_toNat {w : Word} {k : Nat} {b : Bool} (h : w.toNat / 2 ^ k % 2 = b.toNat) : bitAt w k = b := by
  rw [bitAt_eq, h]
  cases b <;> rfl

theorem field_eq_of_toNat {w : Word} {lo len : Nat} {v : BitVec len} (h : w.toNat / 2 ^ lo % 2 ^ len = v.toNat) :
    field w lo len = v :=
  BitVec.eq_of_toNat_eq ((field_toNat w lo len).trans h)

theorem TxFrame.d1_toNat (f : TxFrame) : f.d1.toNat = f.rtr.toNat * 2 ^ 30 + f.ide.toNat * 2 ^ 29 + f.id.toNat := by
  simp only [TxFrame.d1, append_toNat, bit1_toNat, BitVec.toNat_ofNat]
  omega

namespace Machine

/-- The second descriptor word of a received frame (30 R64 D2). -/
def rxD2 (e : RxFrame) : Word :=
  e.cycleTime ++ 0#7 ++ e.errorType.code ++ bit1 e.frame.brs ++ bit1 e.frame.fdf ++ e.frame.dlc

theorem rxFrameWords_eq (e : RxFrame) : rxFrameWords e = e.frame.d1 :: rxD2 e :: packData e.frame.data := rfl

theorem rxD2_toNat (e : RxFrame) : (rxD2 e).toNat = e.cycleTime.toNat * 2 ^ 16 + e.errorType.code.toNat * 2 ^ 6
    + e.frame.brs.toNat * 2 ^ 5 + e.frame.fdf.toNat * 2 ^ 4 + e.frame.dlc.toNat := by
  simp only [rxD2, append_toNat, bit1_toNat, BitVec.toNat_ofNat]
  omega

/-- A frame whose data has the length of its header is read back from its descriptor and data words. -/
theorem ofWords_rxFrameWords {e : RxFrame} (h : e.frame.lengthOk = true) :
    TxFrame.ofWords e.frame.d1 (rxD2 e) (packData e.frame.data) = e.frame := by
  have h1 := e.frame.d1_toNat
  have h2 := rxD2_toNat e
  have := e.frame.id.isLt
  have := e.frame.dlc.isLt
  have := e.frame.ide.toNat_lt
  have := e.frame.rtr.toNat_lt
  have := e.frame.fdf.toNat_lt
  have := e.frame.brs.toNat_lt
  have hid : field e.frame.d1 0 29 = e.frame.id := field_eq_of_toNat (by omega)
  have hide : bitAt e.frame.d1 29 = e.frame.ide := bitAt_eq_of_toNat (by omega)
  have hrtr : bitAt e.frame.d1 30 = e.frame.rtr := bitAt_eq_of_toNat (by omega)
  have hdlc : field (rxD2 e) 0 4 = e.frame.dlc := field_eq_of_toNat (by omega)
  have hfdf : bitAt (rxD2 e) 4 = e.frame.fdf := bitAt_eq_of_toNat (by omega)
  have hbrs : bitAt (rxD2 e) 5 = e.frame.brs := bitAt_eq_of_toNat (by omega)
  have hlen : e.frame.data.length = dataLen e.frame.dlc e.frame.fdf e.frame.rtr := by
    simpa [TxFrame.lengthOk] using h
  rw [TxFrame.ofWords, hid, hide, hrtr, hdlc, hfdf, hbrs, ← hlen, unpackData_packData]

/-- The driver reads a frame back from the words RX_PEEK answers (46 R146 `decode(words)`). -/
theorem rxFrameOfWords_rxFrameWords {e : RxFrame} (h : e.frame.lengthOk = true) :
    rxFrameOfWords (rxFrameWords e) = e := by
  have h2 := rxD2_toNat e
  have := e.cycleTime.isLt
  have := e.errorType.code.isLt
  have := e.frame.dlc.isLt
  have := e.frame.fdf.toNat_lt
  have := e.frame.brs.toNat_lt
  have het : field (rxD2 e) 6 3 = e.errorType.code := field_eq_of_toNat (by omega)
  have hct : field (rxD2 e) 16 16 = e.cycleTime := field_eq_of_toNat (by omega)
  have hfr := ofWords_rxFrameWords h
  simp only [rxFrameOfWords, rxFrameWords_eq, List.getD_cons_zero, List.getD_cons_succ, List.drop_succ_cons,
    List.drop_zero, hfr, het, hct, ErrorType.ofCode_code, Option.getD_some]

end Machine
end Sys2Proof
end

section
/-! SUPPORT. `Receive` with nothing else going on (spec/46_host_procedures.md R146): it takes the frames off the FIFO
oldest first. -/

namespace Sys2Proof.Machine

/-- A command the host writes to a block within the invariants, with nothing else going on (46 R145). -/
theorem HostRun.cmd_of_exec {s t : State} {i : Instr} (hs : s.inv = true) (hd : decode (encode i) = .ok i)
    (ht : exec i s = .next t) : (HostRun.mk s []).cmd i = some (t.resp, ⟨t, []⟩) := by
  have hi : takeInput (commandInput (encode i)) s = .next t :=
    (takeInput_of_inv hs _).trans ((runInput_of_decode_ok hd s).trans ht)
  simp only [HostRun.cmd, HostRun.issue, List.headD_nil, List.nil_append, runInputs, hi, List.tail_nil]

theorem decode_encode_rxPeek : decode (encode .rxPeek) = .ok .rxPeek := by decide

theorem decode_encode_rxRelease : decode (encode .rxRelease) = .ok .rxRelease := by decide

theorem exec_rxPeek_of_nil {s : State} (h : s.rx = []) : exec .rxPeek s = .next (s.fail .empty) := by
  rw [rxPeek_answersOnly.exec, State.peekAnswer, h, State.fail]

theorem exec_rxPeek_of_cons {s : State} {e : RxFrame} {rest : List RxFrame} (h : s.rx = e :: rest) :
    exec .rxPeek s = .next (s.respond .ok (rxFrameWords e)) := by
  rw [rxPeek_answersOnly.exec, State.peekAnswer, h]

/-- RX_RELEASE takes the oldest frame (42 R108). -/
theorem exec_rxRelease_rx {s t : State} (h : exec .rxRelease s = .next t) : t.rx = s.rx.tail := by
  cases h
  cases hrx : s.rx with
  | nil => exact hrx
  | cons e rest => rfl

/-- At an empty FIFO `Receive` stops after one RX_PEEK. -/
theorem receiveDriver_of_nil {s : State} (hs : s.Inv) (h : s.rx = []) (n : Nat) :
    receiveDriver (n + 1) ⟨s, []⟩ = some ([], ⟨s.fail .empty, []⟩) := by
  have hpeek := HostRun.cmd_of_exec (s.inv_iff.mpr hs) decode_encode_rxPeek (exec_rxPeek_of_nil h)
  simp only [receiveDriver, hpeek]
  rfl

/-- One round of `Receive` takes the oldest frame whole and goes on with the rest of the FIFO. -/
theorem receiveDriver_of_cons {s : State} {e : RxFrame} {rest : List RxFrame} (hs : s.Inv) (h : s.rx = e :: rest)
    (hl : e.frame.lengthOk = true) : ∃ u : State, u.Inv ∧ u.rx = rest
      ∧ ∀ n, receiveDriver (n + 1) ⟨s, []⟩ = (receiveDriver n ⟨u, []⟩).map fun x => (e :: x.1, x.2) := by
  have hp := exec_rxPeek_of_cons h
  obtain ⟨u, hr⟩ := exec_next .rxRelease (s.respond .ok (rxFrameWords e))
  have hsp := inv_exec hs hp
  have hpeek := HostRun.cmd_of_exec (s.inv_iff.mpr hs) decode_encode_rxPeek hp
  have hrel := HostRun.cmd_of_exec ((State.inv_iff _).mpr hsp) decode_encode_rxRelease hr
  refine ⟨u, inv_exec hsp hr, ?_, fun n => ?_⟩
  · rw [exec_rxRelease_rx hr, State.respond_rx, h, List.tail_cons]
  · cases hd : receiveDriver n ⟨u, []⟩ <;>
      simp [receiveDriver, hpeek, hrel, hd, rxFrameOfWords_rxFrameWords hl]

/-- `Receive` returns up to `n` frames of the FIFO, oldest first, and leaves the others. -/
theorem receiveDriver_takes_fifo (n : Nat) {s : State} (hs : s.Inv) (hl : ∀ e ∈ s.rx, e.frame.lengthOk = true) :
    ∃ h, receiveDriver n ⟨s, []⟩ = some (s.rx.take n, h) ∧ h.block.rx = s.rx.drop n := by
  induction n generalizing s with
  | zero => exact ⟨⟨s, []⟩, rfl, rfl⟩
  | succ n ih =>
    cases hrx : s.rx with
    | nil => exact ⟨_, receiveDriver_of_nil hs hrx n, hrx⟩
    | cons e rest =>
      rw [hrx, List.forall_mem_cons] at hl
      obtain ⟨hle, hlr⟩ := hl
      obtain ⟨u, hu, rfl, hround⟩ := receiveDriver_of_cons hs hrx hle
      obtain ⟨h, hd, hb⟩ := ih hu hlr
      exact ⟨h, by rw [hround, hd, Option.map_some, List.take_succ_cons], hb⟩

end Sys2Proof.Machine
end

section
/-! SUPPORT. Accepted arrivals at a FIFO with room (spec/42_receive.md R110): each is appended, in the order of arrival. -/

namespace Sys2Proof

/-- What is told of a received frame: its header and data, and its error class (42 R112). -/
def RxFrame.told (e : RxFrame) : TxFrame × ErrorType := (e.frame, e.errorType)

namespace Machine

theorem inv_takeInput {i : Input} {s t : State} (h : takeInput i s = .next t) : t.Inv := by
  obtain ⟨hs, hr⟩ := takeInput_next h
  exact inv_runInput (s.inv_iff.mp hs) hr

/-- The first input of a run that goes through has a next state, from which the others go on. -/
theorem runInputs_cons_eq_some {i : Input} {is : List Input} {s t : State} (h : runInputs (i :: is) s = some t) :
    ∃ u, takeInput i s = .next u ∧ runInputs is u = some t := by
  rw [runInputs] at h
  rcases hu : takeInput i s with u | _ | _ <;> rw [hu] at h
  · exact ⟨u, rfl, h⟩
  · cases h
  · cases h

/-- A run of at least one input that goes through ends within the invariants: a state outside them stops it. -/
theorem inv_of_runInputs_cons {i : Input} {is : List Input} {s t : State} (h : runInputs (i :: is) s = some t) :
    t.Inv := by
  obtain ⟨u, hu, ht⟩ := runInputs_cons_eq_some h
  induction is generalizing i s u with
  | nil => cases ht; exact inv_takeInput hu
  | cons j is ih =>
    obtain ⟨v, hv, hw⟩ := runInputs_cons_eq_some ht
    exact ih ht v hv hw

/-- Acceptance depends on the filters and the parameters alone (42 R103, R104). -/
theorem accepted_congr {s t : State} (hf : t.filt = s.filt) (hp : t.params = s.params) (fr : TxFrame) :
    t.accepted fr = s.accepted fr := by
  simp only [State.accepted, State.filterMatch, hf, hp]

theorem rx_evRxFrame_of_accepted {s : State} {fr : TxFrame} (ha : s.accepted fr = true) (hl : s.rx.length < 8)
    (et : ErrorType) (d : AbortDraw) : (evRxFrame fr et d s).rx = s.rx ++ [s.rxEntry fr et] := by
  have hs : ((s.errUpdate .rxOk d).storeFrame (s.rxEntry fr et)).rx = s.rx ++ [s.rxEntry fr et] := by
    obtain ⟨-, hr, -⟩ | ⟨hf, -⟩ | ⟨hf, -⟩ := (s.errUpdate .rxOk d).storeFrame_cases (s.rxEntry fr et)
    · rw [hr, State.errUpdate_rx]
    · rw [State.errUpdate_rx] at hf; omega
    · rw [State.errUpdate_rx] at hf; omega
  simp only [evRxFrame, ha, if_true]
  split
  · exact hs
  · exact hs

/-- What an arrival tells. -/
def Arrival.told (a : Arrival) : TxFrame × ErrorType := (a.frame, a.errorType)

/-- An accepted arrival at a FIFO with room is appended, and only a frame of the right length arrives. -/
theorem takeInput_arrival {a : Arrival} {s t : State} (h : takeInput a.input s = .next t)
    (ha : s.accepted a.frame = true) (hl : s.rx.length < 8) :
    t.rx = s.rx ++ [s.rxEntry a.frame a.errorType] ∧ a.frame.lengthOk = true
      ∧ ∀ fr, t.accepted fr = s.accepted fr := by
  obtain ⟨-, hr⟩ := takeInput_next h
  obtain ⟨_, _, _, hi, -⟩ | ⟨_, _, _, hi, -⟩ | ⟨e, hi, hc, rfl⟩ | ⟨hi, -⟩ := runInput_next hr <;> cases hi
  have hlen : a.frame.lengthOk = true := by
    rw [eventCanOccur, canRxFrame, Bool.and_eq_true] at hc
    exact hc.2
  exact ⟨rx_evRxFrame_of_accepted ha hl _ _, hlen, accepted_congr (eventEffect_filt _ s) (eventEffect_params _ s)⟩

/-- Accepted arrivals that fit into the FIFO stand in it behind the frames there were, in the order of arrival. -/
theorem runInputs_arrivals {arrivals : List Arrival} {s t : State}
    (h : runInputs (arrivals.map Arrival.input) s = some t) (ha : ∀ a ∈ arrivals, s.accepted a.frame = true)
    (hl : s.rx.length + arrivals.length ≤ 8) :
    ∃ es : List RxFrame, t.rx = s.rx ++ es ∧ es.map RxFrame.told = arrivals.map Arrival.told
      ∧ ∀ e ∈ es, e.frame.lengthOk = true := by
  induction arrivals generalizing s with
  | nil => cases h; exact ⟨[], by simp, rfl, by simp⟩
  | cons a arrivals ih =>
    rw [List.length_cons] at hl
    rw [List.forall_mem_cons] at ha
    obtain ⟨u, hu, ht⟩ := runInputs_cons_eq_some h
    obtain ⟨hrx, hlen, hacc⟩ := takeInput_arrival hu ha.1 (by omega)
    obtain ⟨es, htrx, htold, hlens⟩ := ih ht (fun b hb => (hacc b.frame).trans (ha.2 b hb))
      (by rw [hrx, List.length_append, List.length_singleton]; omega)
    refine ⟨s.rxEntry a.frame a.errorType :: es, ?_, ?_, List.forall_mem_cons.mpr ⟨hlen, hlens⟩⟩
    · rw [htrx, hrx, List.append_assoc, List.singleton_append]
    · exact congrArg (a.told :: ·) htold

end Machine
end Sys2Proof
end

section
/-! The statements of spec/20_memory.md settled. -/

namespace Sys2Proof.Machine

/-- Settles O45: the arrivals stand in the FIFO in their order, and `Receive` takes the FIFO off oldest first. With no
arrival there is no step, so the state need not be within the invariants; `Receive` then issues no command. -/
theorem receiveReturnsArrivalsInOrder : Obligations.ReceiveReturnsArrivalsInOrder := by
  intro s t arrivals hrx hlen hacc h
  cases arrivals with
  | nil => cases h; exact ⟨[], ⟨s, []⟩, rfl, rfl, hrx⟩
  | cons a arrivals =>
    obtain ⟨es, htrx, htold, hlens⟩ := runInputs_arrivals h hacc (by simpa [hrx] using hlen)
    obtain rfl : t.rx = es := by simpa [hrx] using htrx
    have hcount : (a :: arrivals).length = t.rx.length := by simpa using (congrArg List.length htold).symm
    obtain ⟨h', hdriver, hblock⟩ := receiveDriver_takes_fifo t.rx.length (inv_of_runInputs_cons h) hlens
    rw [List.take_length] at hdriver
    rw [List.drop_length] at hblock
    exact ⟨t.rx, h', hcount ▸ hdriver, htold, hblock⟩

/-- Settles O15: each of the eight commands only answers, and its answer does not depend on the one before. -/
theorem readCommandsChangeOnlyTheResponse : Obligations.ReadCommandsChangeOnlyTheResponse := by
  intro i s h
  obtain ⟨answer, hexec, hagain⟩ := exists_answersOnly h
  refine ⟨_, hexec s, rfl, (hexec _).trans ?_⟩
  rw [hagain]
  rfl

/-- Settles O6: the step takes the listed transaction, and the port decodes it. -/
theorem stepRunsTheDecodedCommand : Obligations.StepRunsTheDecodedCommand := by
  intro s w0 rest more hi hs
  rw [step_of_listed hi hs]
  exact ⟨fun i h => runInput_of_decode_ok h _, fun e h => runInput_of_decode_error h _⟩

end Sys2Proof.Machine
end

section
/-! SUPPORT. The decoder reads a command's own words as that command (spec/30_encoding.md R60 to R67, R70). -/

namespace Sys2Proof

/-- A transaction with an assigned opcode, the word count it asks for and fields it reads decodes: the converse of
`decode_ok`. -/
theorem decode_of_fields {w0 : Word} {rest : List Word} {o : Opcode} {i : Instr} (ho : field w0 24 8 = o.code)
    (hl : 1 + rest.length = o.wordCount rest)
    (hf : o.fields w0 (rest.getD 0 0) (rest.getD 1 0) (rest.getD 2 0) (rest.drop 2) = some i) :
    decode (w0 :: rest) = .ok i := by
  simp only [decode, ho, Opcode.ofCode_code, hl, ne_eq, not_true_eq_false, if_false, hf]

/-- A well-formed command has the number of words its opcode and header ask for (30 R61, R62). -/
theorem Instr.length_tailWords {i : Instr} (h : i.wf = true) :
    1 + i.tailWords.length = i.opcode.wordCount i.tailWords := by
  cases i with
  | txLoad buf f => exact (Nat.add_comm _ _).trans ((Laws.Encoding.txLoad buf f).2 h)
  | _ => rfl

/-! ### Codes: a code is read as a value exactly where it is that value's -/

@[simp] theorem WorkMode.ofCode_eq_some {c : BitVec 2} {m : WorkMode} : WorkMode.ofCode c = some m ↔ c = m.code :=
  ⟨fun h => (code_of_ofCode c m h).symm, fun h => h ▸ ofCode_code m⟩

@[simp] theorem MaskType.ofCode_eq_some {c : BitVec 2} {m : MaskType} : MaskType.ofCode c = some m ↔ c = m.code :=
  ⟨fun h => (code_of_ofCode c m h).symm, fun h => h ▸ ofCode_code m⟩

@[simp] theorem TxSelect.ofCode_eq_some {c : BitVec 2} {m : TxSelect} : TxSelect.ofCode c = some m ↔ c = m.code :=
  ⟨fun h => (code_of_ofCode c m h).symm, fun h => h ▸ ofCode_code m⟩

@[simp] theorem TrigType.ofCode_eq_some {c : BitVec 3} {m : TrigType} : TrigType.ofCode c = some m ↔ c = m.code :=
  ⟨fun h => (code_of_ofCode c m h).symm, fun h => h ▸ ofCode_code m⟩

/-! ### The frame descriptor (30 R64) -/

theorem TxFrame.d2_toNat (f : TxFrame) : f.d2.toNat = f.brs.toNat * 2 ^ 5 + f.fdf.toNat * 2 ^ 4 + f.dlc.toNat := by
  simp only [TxFrame.d2, append_toNat, bit1_toNat, BitVec.toNat_ofNat]
  omega

/-- What stands in the first descriptor word. -/
theorem TxFrame.reads_d1 (f : TxFrame) : field f.d1 0 29 = f.id ∧ bitAt f.d1 29 = f.ide ∧ bitAt f.d1 30 = f.rtr
    ∧ bitAt f.d1 31 = false ∧ field f.d1 31 1 = 0 := by
  have hw := f.d1_toNat
  have hid := f.id.isLt
  have hide := f.ide.toNat_lt
  have hrtr := f.rtr.toNat_lt
  have h31 : f.d1.toNat / 2 ^ 31 % 2 = 0 := by omega
  exact ⟨field_eq_of_toNat (by omega), bitAt_eq_of_toNat (by omega), bitAt_eq_of_toNat (by omega),
    bitAt_eq_of_toNat h31, field_eq_of_toNat h31⟩

/-- What stands in the second descriptor word of a TX_LOAD. -/
theorem TxFrame.reads_d2 (f : TxFrame) : field f.d2 0 4 = f.dlc ∧ bitAt f.d2 4 = f.fdf ∧ bitAt f.d2 5 = f.brs
    ∧ field f.d2 6 26 = 0 := by
  have hw := f.d2_toNat
  have hdlc := f.dlc.isLt
  have hfdf := f.fdf.toNat_lt
  have hbrs := f.brs.toNat_lt
  have h6 : f.d2.toNat / 2 ^ 6 % 2 ^ 26 = 0 := by omega
  exact ⟨field_eq_of_toNat (by omega), bitAt_eq_of_toNat (by omega), bitAt_eq_of_toNat (by omega), field_eq_of_toNat h6⟩

theorem TxFrame.lengthOk_iff (f : TxFrame) : f.lengthOk = true ↔ f.data.length = dataLen f.dlc f.fdf f.rtr :=
  beq_iff_eq

/-- A frame is read back from its words, which have no reserved bit (30 R60, R64; 20 R50). -/
theorem TxFrame.ofWords_words {f : TxFrame} (h : f.lengthOk = true) :
    TxFrame.ofWords f.d1 f.d2 (packData f.data) = f ∧ frameReservedZero f.d1 f.d2 (packData f.data) = true := by
  rw [f.lengthOk_iff] at h
  simp [TxFrame.ofWords, frameReservedZero, zeroAt, f.reads_d1, f.reads_d2, ← h, unpackData_packData,
    unusedBytesZero_packData]

/-- The decoder finds a command's operands in the command's own words, and no reserved bit or code: each field it reads
is one piece of the concatenation the encoder writes. -/
theorem Instr.fields_words {i : Instr} (h : i.wf = true) :
    i.opcode.fields i.w0 (i.tailWords.getD 0 0) (i.tailWords.getD 1 0) (i.tailWords.getD 2 0) (i.tailWords.drop 2)
      = some i := by
  cases i with
  | txLoad buf f =>
    obtain ⟨hf, hz⟩ := TxFrame.ofWords_words h
    simp (disch := omega) only [opcode, Opcode.fields, zeroAt, field, bitAt, w0, w0Fields, tailWords, bit1,
      BitVec.extractLsb'_append_eq_of_le, BitVec.extractLsb'_append_eq_of_add_le, BitVec.getLsbD_append]
    simp [hf, hz, TxBuffer.ofBit_bit]
  | _ =>
    simp (disch := omega) only [opcode, Opcode.fields, zeroAt, field, bitAt, w0, w0Fields, tailWords, bit1,
      BitVec.extractLsb'_append_eq_of_le, BitVec.extractLsb'_append_eq_of_add_le, BitVec.getLsbD_append,
      List.getD_cons_zero, List.getD_cons_succ]
    simp [TrigType.ofCode_code, Phase.ofBit_bit, RxPolicy.ofBit_bit, BitTiming.ofWord_word]

end Sys2Proof
end

section
/-! SUPPORT. A transaction the decoder reads is the encoding of what it reads (spec/30_encoding.md R60, R69). -/

namespace Sys2Proof

/-- The fields the decoder reads fill `W0[23:0]`: the bits outside them are 0 and no code is reserved. -/
theorem Opcode.w0Fields_of_fields {o : Opcode} {w0 w1 w2 w3 : Word} {data : List Word} {i : Instr}
    (h : o.fields w0 w1 w2 w3 data = some i) : i.opcode = o ∧ w0.toNat % 2 ^ 24 = i.w0Fields.toNat := by
  cases o with
  | setWorkMode | filterWrite | txEnable | ttcConfig =>
    simp only [Opcode.fields, Option.ite_none_right_eq_some, Option.map_eq_some_iff, Bool.and_eq_true, zeroAt_eq,
      decide_eq_true_eq, WorkMode.ofCode_eq_some, MaskType.ofCode_eq_some, TxSelect.ofCode_eq_some,
      TrigType.ofCode_eq_some] at h
    obtain ⟨hz, c, hc, rfl⟩ := h
    refine ⟨rfl, ?_⟩
    simp only [Instr.w0Fields, ← hc, append_toNat, field_toNat, BitVec.toNat_ofNat]
    omega
  | _ =>
    simp only [Opcode.fields, Option.ite_none_right_eq_some, Option.some.injEq, zeroAt_eq, Bool.and_eq_true,
      decide_eq_true_eq] at h
    obtain ⟨hz, rfl⟩ := h
    refine ⟨rfl, ?_⟩
    simp only [Instr.w0Fields, append_toNat, bit1_toNat, bitAt_toNat, field_toNat, BitVec.toNat_ofNat,
      Phase.bit_ofBit, TxBuffer.bit_ofBit, RxPolicy.bit_ofBit]
    omega

/-! ### The words behind `W0` -/

section
variable {w : Word}

/-- A filter word (30 R65). -/
theorem append_field_of_zeroAt_29 (h : zeroAt w 29 3 = true) : 0#3 ++ field w 0 29 = w := by
  rw [zeroAt_eq, decide_eq_true_eq] at h
  apply BitVec.eq_of_toNat_eq
  simp only [append_toNat, field_toNat, BitVec.toNat_ofNat]
  omega

/-- The reference word of a TTC_CONFIG (30 R66). -/
theorem append_field_of_zeroAt_30 (h : zeroAt w 30 2 = true) : 0#2 ++ bit1 (bitAt w 29) ++ field w 0 29 = w := by
  rw [zeroAt_eq, decide_eq_true_eq] at h
  apply BitVec.eq_of_toNat_eq
  simp only [append_toNat, field_toNat, bit1_toNat, bitAt_toNat, BitVec.toNat_ofNat]
  omega

/-- A word of two halves (30 R66). -/
theorem field_append_field_16 (w : Word) : field w 16 16 ++ field w 0 16 = w := by
  apply BitVec.eq_of_toNat_eq
  simp only [append_toNat, field_toNat]
  omega
end

/-- The descriptor and data words a TX_LOAD is read from are those of its frame (30 R64, 20 R50). -/
theorem TxFrame.words_ofWords {w1 w2 : Word} {ds : List Word}
    (hl : ds.length = dataWordCount (dataLen (field w2 0 4) (bitAt w2 4) (bitAt w1 30)))
    (hz : frameReservedZero w1 w2 ds = true) :
    (ofWords w1 w2 ds).d1 = w1 ∧ (ofWords w1 w2 ds).d2 = w2 ∧ packData (ofWords w1 w2 ds).data = ds := by
  simp only [frameReservedZero, Bool.and_eq_true, zeroAt_eq, decide_eq_true_eq] at hz
  obtain ⟨⟨h1, h2⟩, hd⟩ := hz
  refine ⟨BitVec.eq_of_toNat_eq ?_, BitVec.eq_of_toNat_eq ?_, packData_unpackData hl hd⟩
  · simp only [d1_toNat, ofWords, field_toNat, bitAt_toNat]
    omega
  · simp only [d2_toNat, ofWords, field_toNat, bitAt_toNat]
    omega

/-- The words behind `W0` are filled too: as many as the opcode and the header ask for, without a reserved bit. -/
theorem Instr.tailWords_of_fields {w0 : Word} {rest : List Word} {i : Instr}
    (hl : 1 + rest.length = i.opcode.wordCount rest)
    (h : i.opcode.fields w0 (rest.getD 0 0) (rest.getD 1 0) (rest.getD 2 0) (rest.drop 2) = some i) :
    i.tailWords = rest := by
  cases i with
  | btWrite p t =>
    obtain ⟨w1, rfl⟩ := List.length_eq_one_iff.mp (Nat.add_left_cancel hl : rest.length = 1)
    obtain ⟨-, -, rfl⟩ := by simpa [opcode, Opcode.fields] using h
    exact congrArg (· :: []) (BitTiming.word_ofWord w1)
  | filterWrite index mt id mask =>
    obtain ⟨w1, w2, rfl⟩ := List.length_eq_two.mp (Nat.add_left_cancel hl : rest.length = 2)
    obtain ⟨⟨⟨-, h1⟩, h2⟩, -, -, rfl, rfl⟩ := by simpa [opcode, Opcode.fields] using h
    rw [tailWords, append_field_of_zeroAt_29 h1, append_field_of_zeroAt_29 h2]
  | ttcConfig c =>
    obtain ⟨w1, w2, w3, rfl⟩ := List.length_eq_three.mp (Nat.add_left_cancel hl : rest.length = 3)
    obtain ⟨⟨-, h1⟩, tt, -, rfl⟩ := by simpa [opcode, Opcode.fields] using h
    rw [tailWords, append_field_of_zeroAt_30 h1, field_append_field_16, field_append_field_16]
  | txLoad buf f =>
    have h3 : 3 ≤ 1 + rest.length := hl ▸ Nat.le_add_right 3 _
    obtain _ | ⟨w1, _ | ⟨w2, ds⟩⟩ := rest
    iterate 2 · simp at h3
    obtain ⟨⟨-, hz⟩, -, rfl⟩ := by simpa [opcode, Opcode.fields] using h
    simp [opcode, Opcode.wordCount] at hl
    obtain ⟨h1, h2, hd⟩ := TxFrame.words_ofWords (by omega) hz
    rw [tailWords, h1, h2, hd]
  | _ => exact (List.length_eq_zero_iff.mp (Nat.add_left_cancel hl)).symm

/-- What a transaction that decodes holds: the opcode and the fields of the command, in exactly the command's words. -/
theorem decode_eq_ok {w0 : Word} {rest : List Word} {i : Instr} (h : decode (w0 :: rest) = .ok i) :
    field w0 24 8 = i.opcode.code
      ∧ i.opcode.fields w0 (rest.getD 0 0) (rest.getD 1 0) (rest.getD 2 0) (rest.drop 2) = some i
      ∧ i.w0 = w0 ∧ i.tailWords = rest := by
  obtain ⟨_, _, o, ⟨⟩, ho, hl, hf⟩ := decode_ok h
  obtain ⟨rfl, hw⟩ := Opcode.w0Fields_of_fields hf
  exact ⟨ho, hf, Instr.w0_eq ho hw, Instr.tailWords_of_fields hl hf⟩

end Sys2Proof
end

section
/-! SUPPORT. The values a one-bit field stands for (spec/30_encoding.md R70), and every byte of packed data
(spec/20_memory.md R50). -/

namespace Sys2Proof

theorem Phase.ofBit_cases : ∀ b, ofBit b = .slow ∧ b = false ∨ ofBit b = .fast ∧ b = true := by decide

theorem TxBuffer.ofBit_cases : ∀ b, ofBit b = .ptb ∧ b = false ∨ ofBit b = .stb ∧ b = true := by decide

theorem RxPolicy.ofBit_cases : ∀ b, ofBit b = .discardNew ∧ b = false ∨ ofBit b = .saveNew ∧ b = true := by decide

/-- Every byte of the data words: the frame's, and 0 behind its last (20 R50). -/
theorem dataByte_packData_eq_ite (data : List Byte) (k : Nat) (hk : k < 4 * (packData data).length) :
    dataByte (packData data) k = if k < data.length then data.getD k 0 else 0 := by
  rw [dataByte_packData _ _ (packData_length data ▸ hk)]
  split
  · rfl
  · exact List.getD_eq_default _ _ (by omega)

end Sys2Proof
end

section
/-! SUPPORT. What a command can answer, said once for all commands (spec/30_encoding.md R68,
spec/60_exceptions.md R159). -/

namespace Sys2Proof.Machine

/-- The commands that may answer CONFIG_ERROR (60 R159). -/
def checkingOpcodes : List Opcode :=
  [.btWrite, .filterWrite, .filterEnable, .filterRead, .txLoad, .txEnable, .rxSetConfig, .errSetWarnLimit,
    .errForceBusOff, .errClearCounters, .ttcConfig]

/-- The commands that answer data words (30 R68). -/
def readingOpcodes : List Opcode :=
  [.btRead, .filterRead, .txStatusRead, .rxPeek, .rxStatusRead, .errRead, .ttcRead, .statusRead]

/-- `MayAnswer o r`: a command with the opcode `o` may answer `r` (60 R159). -/
inductive MayAnswer : Opcode → Response → Prop
  | done (o : Opcode) : MayAnswer o ⟨.ok, []⟩
  | words {o : Opcode} (ws : List Word) (ho : o ∈ readingOpcodes := by simp [Instr.opcode, readingOpcodes]) :
    MayAnswer o ⟨.ok, ws⟩
  | configError {o : Opcode} (ho : o ∈ checkingOpcodes := by simp [Instr.opcode, checkingOpcodes]) :
    MayAnswer o ⟨.configError, []⟩
  | bufferFull : MayAnswer .txLoad ⟨.bufferFull, []⟩
  | empty {o : Opcode} (ho : o = .rxPeek ∨ o = .rxRelease) : MayAnswer o ⟨.empty, []⟩

/-- A command that may fail the check `c` answers CONFIG_ERROR there. -/
theorem mayAnswer_of_check {o : Opcode} {s t : State} {c : Prop} [Decidable c] (ht : MayAnswer o t.resp)
    (ho : o ∈ checkingOpcodes := by simp [Instr.opcode, checkingOpcodes]) :
    MayAnswer o (if c then s.fail .configError else t).resp := by
  split
  · exact .configError ho
  · exact ht

theorem mayAnswer_load (s : State) (buf : TxBuffer) (f : TxFrame) : MayAnswer .txLoad (s.load buf f).resp := by
  cases buf with
  | ptb => rw [State.load]; split; exacts [.done _, .bufferFull]
  | stb => rw [State.load]; split; exacts [.bufferFull, .done _]

/-- What a command answers: its checks fail with CONFIG_ERROR, a full buffer and an empty FIFO with their own codes. -/
theorem mayAnswer_of_exec {i : Instr} {s t : State} (h : exec i s = .next t) : MayAnswer i.opcode t.resp := by
  cases i with
  | cfgEnter | cfgLeave | setWorkMode | setTxOptions | reset | txAbort | ttcEnable | statusClear | intEnable =>
    cases h; exact .done _
  | btRead | txStatusRead | rxStatusRead | errRead | ttcRead | statusRead => cases h; exact .words _
  | filterEnable | rxSetConfig | errSetWarnLimit | errForceBusOff | ttcConfig =>
    cases h; exact mayAnswer_of_check (.done _)
  | btWrite | filterWrite | errClearCounters =>
    cases h; exact mayAnswer_of_check (mayAnswer_of_check (.done _))
  | txLoad buf f => cases h; exact mayAnswer_of_check (mayAnswer_of_check (mayAnswer_load s buf f))
  | txEnable sel => cases h; exact mayAnswer_of_check (by cases sel <;> exact .done _)
  | filterRead index =>
    cases h
    cases s.filt[index.toNat]? with
    | none => exact .configError
    | some f => exact .words _
  | rxPeek =>
    cases h
    cases s.rx with
    | nil => exact .empty (.inl rfl)
    | cons e rest => exact .words _
  | rxRelease =>
    cases h
    cases s.rx with
    | nil => exact .empty (.inr rfl)
    | cons e rest => exact .done _

end Sys2Proof.Machine
end

section
/-! The statements of spec/30_encoding.md settled. -/

namespace Sys2Proof.Machine

/-- Settles O1: the words have the opcode, their number and every field the decoder asks for. -/
theorem decodeOfEncode : Obligations.DecodeOfEncode := fun i h =>
  decode_of_fields i.w0_opcode (Instr.length_tailWords h) (Instr.fields_words h)

/-- Settles O2: the fields the decoder reads, with the bits it asks to be 0, fill every word. -/
theorem decodeAcceptsOnlyEncodings : Obligations.DecodeAcceptsOnlyEncodings := by
  intro ws i h
  obtain ⟨w0, rest, -, rfl, -⟩ := decode_ok h
  obtain ⟨-, -, rfl, rfl⟩ := decode_eq_ok h
  exact ⟨decode_wf h, rfl⟩

/-- Settles O3: command by command, the fields the decoder reads are those of the map; a command without operands has
one word, its own. -/
theorem operandsStandInTheMapsFields : Obligations.OperandsStandInTheMapsFields := by
  intro w0 rest i h
  obtain ⟨ho, hf, hw, hr⟩ := decode_eq_ok h
  cases i with
  | cfgEnter | cfgLeave | reset | txStatusRead | rxPeek | rxRelease | rxStatusRead | errRead | errForceBusOff
  | errClearCounters | ttcRead | statusRead => exact ⟨hw.symm, hr.symm⟩
  | filterRead | errSetWarnLimit | ttcEnable | statusClear =>
    obtain ⟨hz, rfl⟩ := by simpa [Instr.opcode, Opcode.fields, zeroAt] using hf
    exact ⟨ho, hr.symm, hz, rfl⟩
  | filterEnable | txAbort =>
    obtain ⟨hz, rfl, rfl⟩ := by simpa [Instr.opcode, Opcode.fields, zeroAt] using hf
    exact ⟨ho, hr.symm, hz, rfl, rfl⟩
  | intEnable mask en =>
    obtain ⟨⟨hz, hz'⟩, rfl, rfl⟩ := by simpa [Instr.opcode, Opcode.fields, zeroAt] using hf
    exact ⟨ho, hr.symm, hz, hz', rfl, rfl⟩
  | setTxOptions opt =>
    obtain ⟨hz, rfl⟩ := by simpa [Instr.opcode, Opcode.fields, zeroAt] using hf
    exact ⟨ho, hr.symm, hz, rfl, rfl, rfl⟩
  | setWorkMode m =>
    obtain ⟨hz, hm⟩ := by simpa [Instr.opcode, Opcode.fields, zeroAt] using hf
    exact ⟨ho, hr.symm, hz, by cases m <;> simp [hm, WorkMode.code]⟩
  | txEnable sel =>
    obtain ⟨hz, hsel⟩ := by simpa [Instr.opcode, Opcode.fields, zeroAt] using hf
    exact ⟨ho, hr.symm, hz, by cases sel <;> simp [hsel, TxSelect.code]⟩
  | btRead p =>
    obtain ⟨hz, rfl⟩ := by simpa [Instr.opcode, Opcode.fields, zeroAt] using hf
    exact ⟨ho, hr.symm, hz, Phase.ofBit_cases _⟩
  | rxSetConfig a p =>
    obtain ⟨hz, rfl, rfl⟩ := by simpa [Instr.opcode, Opcode.fields, zeroAt] using hf
    exact ⟨ho, hr.symm, hz, rfl, RxPolicy.ofBit_cases _⟩
  | btWrite p t =>
    obtain ⟨w1, rfl⟩ : ∃ w1, rest = [w1] := ⟨_, hr.symm⟩
    obtain ⟨hz, rfl, rfl⟩ := by simpa [Instr.opcode, Opcode.fields, zeroAt] using hf
    exact ⟨ho, hz, Phase.ofBit_cases _, w1, rfl, rfl, rfl, rfl, rfl⟩
  | filterWrite index mt id mask =>
    obtain ⟨w1, w2, rfl⟩ : ∃ w1 w2, rest = [w1, w2] := ⟨_, _, hr.symm⟩
    obtain ⟨⟨⟨hz, hz1⟩, hz2⟩, hmt, rfl, rfl, rfl⟩ := by simpa [Instr.opcode, Opcode.fields, zeroAt] using hf
    exact ⟨ho, hz, rfl, by cases mt <;> simp [hmt, MaskType.code], w1, w2, rfl, hz1, hz2, rfl, rfl⟩
  | ttcConfig c =>
    obtain ⟨w1, w2, w3, rfl⟩ : ∃ w1 w2 w3, rest = [w1, w2, w3] := ⟨_, _, _, hr.symm⟩
    obtain ⟨⟨hz, hz1⟩, tt, htt, rfl⟩ := by simpa [Instr.opcode, Opcode.fields, zeroAt] using hf
    exact ⟨ho, hz, rfl, by cases tt <;> simp [htt, TrigType.code], w1, w2, w3, rfl, hz1, rfl, rfl, rfl, rfl, rfl, rfl⟩
  | txLoad buf f =>
    obtain ⟨⟨hz, -⟩, rfl, -⟩ := by simpa [Instr.opcode, Opcode.fields, zeroAt] using hf
    have hlen := f.lengthOk_iff.mp (decode_wf h)
    obtain ⟨hid, hide, hrtr, h31, -⟩ := f.reads_d1
    obtain ⟨hdlc, hfdf, hbrs, h6⟩ := f.reads_d2
    exact ⟨ho, hz, TxBuffer.ofBit_cases _, f.d1, f.d2, packData f.data, hr.symm,
      (packData_length _).trans (congrArg dataWordCount hlen), hid.symm, hide.symm, hrtr.symm, h31, hdlc.symm,
      hfdf.symm, hbrs.symm, h6, hlen, dataByte_packData_eq_ite f.data⟩

/-- Settles O5: what decodes is the encoding of a well-formed command, with that command's opcode. -/
theorem nonCommandsAnswerIllegal : Obligations.NonCommandsAnswerIllegal := by
  intro w0 rest s
  have illegal (hn : ∀ i, decode (w0 :: rest) ≠ .ok i) :
      runInput (.command w0 rest) s = .next { s with resp := ⟨.illegal, []⟩ } := by
    cases hd : decode (w0 :: rest) with
    | error e => exact runInput_of_decode_error hd s
    | ok i => exact absurd hd (hn i)
  refine ⟨fun hn => illegal fun i hd => ?_, fun hc => illegal fun i hd => ?_⟩
  · obtain ⟨hwf, he⟩ := decodeAcceptsOnlyEncodings _ _ hd
    exact hn i hwf he
  · obtain ⟨ho, -⟩ := decode_eq_ok hd
    rw [ho] at hc
    revert hc
    cases i.opcode <;> decide

/-- Settles O13: ILLEGAL where the transaction does not decode, else one of the answers its command may give. -/
theorem everyTransactionHasItsResultCode : Obligations.EveryTransactionHasItsResultCode := by
  intro w0 rest s
  cases hd : decode (w0 :: rest) with
  | error e => exact ⟨_, runInput_of_decode_error hd s, rfl⟩
  | ok i =>
    obtain ⟨t, ht⟩ := exec_next i s
    refine ⟨t, (runInput_of_decode_ok hd s).trans ht, ?_⟩
    have ha := mayAnswer_of_exec ht
    dsimp only
    generalize t.resp = r at ha ⊢
    generalize i.opcode = o at ha ⊢
    cases ha with
    | done => exact ⟨.inl rfl, fun h => absurd rfl h⟩
    | words ws ho => exact ⟨.inl rfl, fun _ => ⟨rfl, ho⟩⟩
    | configError ho => exact ⟨.inr (.inl ⟨rfl, ho⟩), fun h => absurd rfl h⟩
    | bufferFull => exact ⟨.inr (.inr (.inl ⟨rfl, rfl⟩)), fun h => absurd rfl h⟩
    | empty ho => exact ⟨.inr (.inr (.inr ⟨rfl, ho⟩)), fun h => absurd rfl h⟩

/-- Settles O4: the decoder runs on each of the twelve transactions. -/
theorem workedEncodingsDecode : Obligations.WorkedEncodingsDecode := by
  unfold Obligations.WorkedEncodingsDecode
  decide

end Sys2Proof.Machine
end

section
/-! SUPPORT. The bit timing (spec/40_config.md R80, R81): what BT_WRITE checks, and what is read back. -/

namespace Sys2Proof.Machine

open Sys2Proof.Config

theorem inRange_iff (r : FieldRange) (v : BitVec 8) : inRange r v = true ↔ r.lo ≤ v.toNat ∧ v.toNat ≤ r.hi := by
  rw [inRange, Bool.and_eq_true, decide_eq_true_eq, decide_eq_true_eq]

theorem timingOrdered_iff (t : BitTiming) :
    timingOrdered t = true ↔ t.seg2.toNat + 1 ≤ t.seg1.toNat ∧ t.sjw.toNat ≤ t.seg2.toNat := by
  rw [timingOrdered, Bool.and_eq_true, decide_eq_true_eq, decide_eq_true_eq]

theorem State.timingLegal_iff (s : State) (p : Phase) (t : BitTiming) : s.timingLegal p t = true ↔
    ((s.btRange p).seg1.lo ≤ t.seg1.toNat ∧ t.seg1.toNat ≤ (s.btRange p).seg1.hi)
    ∧ ((s.btRange p).seg2.lo ≤ t.seg2.toNat ∧ t.seg2.toNat ≤ (s.btRange p).seg2.hi)
    ∧ ((s.btRange p).sjw.lo ≤ t.sjw.toNat ∧ t.sjw.toNat ≤ (s.btRange p).sjw.hi)
    ∧ ((s.btRange p).prescaler.lo ≤ t.prescaler.toNat ∧ t.prescaler.toNat ≤ (s.btRange p).prescaler.hi)
    ∧ t.seg2.toNat + 1 ≤ t.seg1.toNat ∧ t.sjw.toNat ≤ t.seg2.toNat := by
  simp only [State.timingLegal, rangeAdmits, Bool.and_eq_true, inRange_iff, timingOrdered_iff, and_assoc]

theorem execBtWrite_of_legal {s : State} {p : Phase} {t : BitTiming}
    (h : s.mode = .config ∧ s.timingLegal p t = true) :
    execBtWrite p t s = .next ((s.setTiming p t).respond .ok []) := by
  simp [execBtWrite, h]

theorem execBtWrite_of_illegal {s : State} {p : Phase} {t : BitTiming}
    (h : ¬ (s.mode = .config ∧ s.timingLegal p t = true)) : execBtWrite p t s = .next (s.fail .configError) := by
  rw [execBtWrite]
  split_ifs with hm ht
  · rfl
  · rfl
  · exact absurd ⟨not_not.mp hm, by simpa using ht⟩ h

@[simp] theorem State.timing_setTiming (s : State) (p : Phase) (t : BitTiming) : (s.setTiming p t).timing p = t := by
  cases p <;> rfl

@[simp] theorem State.timing_respond (s : State) (p : Phase) (c : ResultCode) (w : List Word) :
    (s.respond c w).timing p = s.timing p := by cases p <;> rfl

/-- A BT_WRITE that answers OK has written its tuple. -/
theorem timing_of_execBtWrite {s u : State} {p : Phase} {t : BitTiming} (h : execBtWrite p t s = .next u)
    (hok : u.resp.code = .ok) : u.timing p = t := by
  by_cases hl : s.mode = .config ∧ s.timingLegal p t = true
  · rw [execBtWrite_of_legal hl] at h
    cases h
    simp
  · rw [execBtWrite_of_illegal hl] at h
    cases h
    cases hok

end Sys2Proof.Machine
end

section
/-! SUPPORT. The filter commands (spec/40_config.md R83 to R85): which checks pass, and the filters one by one. -/

namespace Sys2Proof.Machine

/-- What FILTER_WRITE does to the filter it names: the enable stays (40 R83). -/
theorem execFilterWrite_of_config {s : State} {index : BitVec 4} (hm : s.mode = .config)
    (hi : index.toNat < s.filt.length) (mt : MaskType) (id mask : BitVec 29) :
    execFilterWrite index mt id mask s = .next
      ({ s with filt := s.filt.modify index.toNat fun f => ⟨id, mask, mt, f.en⟩ }.respond .ok []) := by
  simp [execFilterWrite, hm, State.nfilt, Nat.not_le.mpr hi]

theorem execFilterWrite_of_failedCheck {s : State} {index : BitVec 4}
    (h : s.mode = .normal ∨ s.filt.length ≤ index.toNat) (mt : MaskType) (id mask : BitVec 29) :
    execFilterWrite index mt id mask s = .next (s.fail .configError) := by
  obtain hm | hi := h
  · simp [execFilterWrite, hm]
  · simp [execFilterWrite, State.nfilt, hi]

/-- FILTER_ENABLE's check: each bit of the selection names a filter that exists (40 R84). -/
theorem selectsAbsent_eq_false_iff (sel : BitVec 16) (n : Nat) :
    selectsAbsent sel n = false ↔ ∀ i, n ≤ i → sel.getLsbD i = false := by
  simp only [selectsAbsent, List.any_eq_false, List.mem_range, Bool.and_eq_true, decide_eq_true_eq, not_and]
  constructor
  · intro h i hn
    by_contra hb
    have hb : sel.getLsbD i = true := by simpa using hb
    exact h i (BitVec.lt_of_getLsbD hb) hb hn
  · intro h i _ hb hn
    rw [h i hn] at hb
    cases hb

theorem getElem?_enableSelected (sel : BitVec 16) (en : Bool) (l : List Sys2Proof.Filter) (j : Nat) :
    (enableSelected sel en l)[j]? =
      l[j]?.map fun f => if sel.getLsbD j then ⟨f.id, f.mask, f.maskType, en⟩ else f := by
  simp [enableSelected]

/-- Enabling the same filters again changes none (20 R53). -/
theorem enableSelected_enableSelected (sel : BitVec 16) (en : Bool) (l : List Sys2Proof.Filter) :
    enableSelected sel en (enableSelected sel en l) = enableSelected sel en l := by
  apply List.ext_getElem?
  intro j
  simp only [getElem?_enableSelected, Option.map_map]
  congr 1
  funext f
  by_cases hb : sel.getLsbD j = true <;> simp [hb]

theorem execFilterEnable_of_present {s : State} {sel : BitVec 16}
    (h : ∀ i, s.filt.length ≤ i → sel.getLsbD i = false) (en : Bool) :
    execFilterEnable sel en s = .next ({ s with filt := enableSelected sel en s.filt }.respond .ok []) := by
  simp [execFilterEnable, State.nfilt, (selectsAbsent_eq_false_iff _ _).mpr h]

theorem execFilterEnable_of_absent {s : State} {sel : BitVec 16} {i : Nat} (hi : s.filt.length ≤ i)
    (hb : sel.getLsbD i = true) (en : Bool) : execFilterEnable sel en s = .next (s.fail .configError) := by
  have ha : selectsAbsent sel s.filt.length = true := by
    by_contra hn
    rw [Bool.not_eq_true, selectsAbsent_eq_false_iff] at hn
    exact absurd hb (by simp [hn i hi])
  simp [execFilterEnable, State.nfilt, ha]

/-- The first word of FILTER_READ: enable and mask type (30 R65). -/
def filterWord (f : Sys2Proof.Filter) : Word := 0#26 ++ f.maskType.code ++ 0#3 ++ bit1 f.en

theorem State.filterAnswer_of_some {s : State} {index : BitVec 4} {f : Sys2Proof.Filter}
    (h : s.filt[index.toNat]? = some f) :
    s.filterAnswer index = ⟨.ok, [filterWord f, 0#3 ++ f.id, 0#3 ++ f.mask]⟩ := by
  rw [State.filterAnswer, h]
  rfl

theorem State.filterAnswer_of_absent {s : State} {index : BitVec 4} (h : s.filt.length ≤ index.toNat) :
    s.filterAnswer index = ⟨.configError, []⟩ := by
  rw [State.filterAnswer, List.getElem?_eq_none h]

theorem filterWord_toNat (f : Sys2Proof.Filter) :
    (filterWord f).toNat = f.maskType.code.toNat * 2 ^ 4 + f.en.toNat := by
  simp only [filterWord, append_toNat, bit1_toNat, BitVec.toNat_ofNat]
  omega

/-- What stands in the first word of FILTER_READ (30 R65, 40 R85). -/
theorem filterWord_reads (f : Sys2Proof.Filter) : bitAt (filterWord f) 0 = f.en ∧ field (filterWord f) 1 3 = 0
    ∧ field (filterWord f) 4 2 = f.maskType.code ∧ field (filterWord f) 6 26 = 0 := by
  have hw := filterWord_toNat f
  have hen := f.en.toNat_lt
  have hmt := f.maskType.code.isLt
  have h1 : (filterWord f).toNat / 2 ^ 1 % 2 ^ 3 = 0 := by omega
  have h6 : (filterWord f).toNat / 2 ^ 6 % 2 ^ 26 = 0 := by omega
  exact ⟨bitAt_eq_of_toNat (by omega), field_eq_of_toNat h1, field_eq_of_toNat (by omega), field_eq_of_toNat h6⟩

/-- An identifier or mask word of FILTER_READ (30 R65). -/
theorem idWord_reads (v : BitVec 29) : field (0#3 ++ v) 0 29 = v ∧ field (0#3 ++ v) 29 3 = 0 := by
  have hw : (0#3 ++ v).toNat = v.toNat := (append_toNat 0#3 v).trans (by simp)
  have hv := v.isLt
  have h29 : (0#3 ++ v).toNat / 2 ^ 29 % 2 ^ 3 = 0 := by omega
  exact ⟨field_eq_of_toNat (by omega), field_eq_of_toNat h29⟩

end Sys2Proof.Machine
end

section
/-! SUPPORT. What a reset draws for the TTC configuration lies in the ranges of spec/70_reset_and_hazards.md R173. -/

namespace Sys2Proof.Machine

open Sys2Proof.Config

theorem slotPtr_drawTtcCfg_le (p : Params) (nstb : Nat) (d : ResetDraw) :
    (drawTtcCfg p nstb d).slotPtr.toNat ≤ nstb := by
  have hslot : d.ttcCfg.slotPtr.toNat % (nstb + 1) < nstb + 1 := Nat.mod_lt _ (Nat.zero_lt_succ _)
  have hbyte := Nat.mod_le (d.ttcCfg.slotPtr.toNat % (nstb + 1)) (2 ^ 8)
  simp only [drawTtcCfg, BitVec.toNat_ofNat]
  omega

theorem refId_drawTtcCfg_lt {p : Params} {nstb : Nat} {d : ResetDraw} (h : (drawTtcCfg p nstb d).refIde = false) :
    (drawTtcCfg p nstb d).refId.toNat < 2 ^ 11 := by
  have he : d.ttcCfg.refIde = false := h
  simp only [drawTtcCfg, he, Bool.false_eq_true, if_false, BitVec.toNat_ofNat]
  omega

end Sys2Proof.Machine
end

section
/-! SUPPORT. The end of an attempt (spec/41_transmit.md R91): slots, enables and frame, and the attempt that CFG_ENTER
ends (spec/40_config.md R77). -/

namespace Sys2Proof.Machine

theorem State.singleShot_iff (s : State) (k : Nat) : s.singleShot k = true ↔
    k = 0 ∧ s.txOpt.ptbSS = true ∨ 1 ≤ k ∧ s.txOpt.stbSS = true
      ∨ s.ttcEn = true ∧ k = s.ttcCfg.slotPtr.toNat ∧ s.ttcCfg.trigType = .singleShotTransmit := by
  simp only [State.singleShot, Bool.or_eq_true, Bool.and_eq_true, decide_eq_true_eq, beq_iff_eq, or_assoc, and_assoc]

/-- The transmit buffers, the enables, the release and the flags are all that the end of an attempt can change. -/
theorem State.failAttempt_frame (s : State) (k : Nat) (c : FailCause) (d : AbortDraw) : s.failAttempt k c d =
    { s with
      ptb := (s.failAttempt k c d).ptb, stb := (s.failAttempt k c d).stb, ptbEn := (s.failAttempt k c d).ptbEn,
      stbEn := (s.failAttempt k c d).stbEn, released := (s.failAttempt k c d).released,
      flags := (s.failAttempt k c d).flags } := by
  apply State.ext <;> simp

theorem State.le_nstb_of_transmitting {s : State} {k : Nat} (hk : (s.slot k).st = .transmitting) : k ≤ s.nstb :=
  State.le_nstb_of_st_ne (by rw [hk]; decide)

theorem State.slot_modifySlot_self {s : State} {k : Nat} (h : k ≤ s.nstb) (f : Slot → Slot) :
    (s.modifySlot k f).slot k = f (s.slot k) := by
  rw [State.slot_modifySlot, if_pos ⟨rfl, h⟩]

theorem State.slot_modifySlot_other {j k : Nat} (h : j ≠ k) (s : State) (f : Slot → Slot) :
    (s.modifySlot k f).slot j = s.slot j := by
  rw [State.slot_modifySlot, if_neg fun hj => h hj.1]

theorem State.slot_failAttempt_self {s : State} {k : Nat} (hk : (s.slot k).st = .transmitting) (c : FailCause)
    (d : AbortDraw) :
    (s.failAttempt k c d).slot k = if s.drops k c d then (s.slot k).emptied else (s.slot k).requeued := by
  rw [State.slot_failAttempt, if_pos ⟨rfl, State.le_nstb_of_transmitting hk⟩]

theorem State.slot_failAttempt_other {j k : Nat} (h : j ≠ k) (s : State) (c : FailCause) (d : AbortDraw) :
    (s.failAttempt k c d).slot j = s.slot j := by
  rw [State.slot_failAttempt, if_neg fun hj => h hj.1]

/-- The STB enable never outlives the last STB frame (41 R88). -/
theorem State.stbEn_failAttempt_of_last {s : State} {k : Nat} {c : FailCause} {d : AbortDraw}
    (hd : s.drops k c d = true) (h : ∀ j, ((s.failAttempt k c d).slot (j + 1)).st = .empty) :
    (s.failAttempt k c d).stbEn = .off := by
  rw [State.stbEn_failAttempt, hd, (State.stb_all_empty_iff _).mpr h]
  rfl

/-- With a frame left in the STB its enable ends only where it was for the one frame, a single-shot one (41 R91). -/
theorem State.stbEn_failAttempt_of_frame {s : State} {k : Nat} {c : FailCause} {d : AbortDraw}
    (h : ∃ j, ((s.failAttempt k c d).slot (j + 1)).st ≠ .empty) :
    (s.failAttempt k c d).stbEn = if s.singleShot k = true ∧ k ≠ 0 ∧ s.stbEn = .one then .off else s.stbEn := by
  have hn : (s.failAttempt k c d).stb.all Slot.isEmpty = false := by
    rwa [← Bool.not_eq_true, State.stb_all_empty_iff, not_forall]
  simp [State.stbEn_failAttempt, hn, and_assoc]

/-- A frame that is not dropped waits again, and nothing else changes (41 R91). -/
theorem State.failAttempt_of_kept {s : State} {k : Nat} {c : FailCause} {d : AbortDraw}
    (h : s.drops k c d = false) : s.failAttempt k c d = s.modifySlot k Slot.requeued := by
  obtain ⟨-, hd, -⟩ | ⟨-, -, hd, -⟩ | ⟨-, -, -, he⟩ := s.failAttempt_cases k c d
  · exact absurd (hd.symm.trans h) (by decide)
  · exact absurd (hd.symm.trans h) (by decide)
  · exact he

/-- CFG_ENTER honours no abort, so only a single-shot frame is dropped (D23, log 7). -/
theorem State.drops_configEntry (s : State) (k : Nat) (d : AbortDraw) :
    s.drops k .configEntry d = s.singleShot k := by
  simp [State.drops, State.honours, FailCause.mayHonour]

/-- The bus engine's choice plays no part where CFG_ENTER ends the attempt (log 7). -/
theorem State.failAttempt_configEntry_draw (s : State) (k : Nat) (d d' : AbortDraw) :
    s.failAttempt k .configEntry d = s.failAttempt k .configEntry d' := rfl

theorem execCfgEnter_of_idle {s : State} (h : ∀ k, (s.slot k).st ≠ .transmitting) :
    execCfgEnter s = .next ({ s with mode := .config }.respond .ok []) := by
  rw [execCfgEnter, State.endAttempt_of_idle h]

theorem execCfgEnter_of_transmitting {s : State} {k : Nat} (h1 : s.inv1 = true) (hk : (s.slot k).st = .transmitting)
    (d : AbortDraw) :
    execCfgEnter s = .next ({ s.failAttempt k .configEntry d with mode := .config }.respond .ok []) := by
  rw [execCfgEnter, State.endAttempt_of_txSlot (State.txSlot_eq h1 hk), s.failAttempt_configEntry_draw k _ d]

/-- A frame that is not single-shot is Queued again, even with an abort asked for (40 R77, 70 R184). -/
theorem execCfgEnter_of_kept {s : State} {k : Nat} (h1 : s.inv1 = true) (hk : (s.slot k).st = .transmitting)
    (hs : s.singleShot k = false) :
    execCfgEnter s = .next ({ s.modifySlot k Slot.requeued with mode := .config }.respond .ok []) := by
  rw [execCfgEnter_of_transmitting h1 hk default, State.failAttempt_of_kept (s.drops_configEntry k _ ▸ hs)]

end Sys2Proof.Machine
end

section
/-! The statements of spec/40_config.md settled, with the end of an attempt (spec/41_transmit.md R91) that CFG_ENTER
leans on. -/

namespace Sys2Proof.Machine

/-- Settles O22: with no slot Transmitting there is no attempt to end; else it ends without an abort. -/
theorem configEnterEndsTheAttempt : Obligations.ConfigEnterEndsTheAttempt := by
  intro s
  refine ⟨execCfgEnter_of_idle, fun k h1 hk => ⟨execCfgEnter_of_transmitting h1 hk, fun hs => ?_⟩, ?_⟩
  · rw [← s.singleShot_iff, Bool.not_eq_true] at hs
    have hslot : ({ s.modifySlot k Slot.requeued with mode := .config }.respond .ok []).slot
        = (s.modifySlot k Slot.requeued).slot := State.slot_congr rfl rfl
    refine ⟨_, execCfgEnter_of_kept h1 hk hs, by cases k <;> rfl, s.nstb_modifySlot k _, ?_, fun j hj => ?_⟩
    · rw [hslot, State.slot_modifySlot_self (State.le_nstb_of_transmitting hk)]
      rfl
    · rw [hslot, State.slot_modifySlot_other hj]
  · exact ⟨_, rfl, s.flags_endAttempt_configEntry _, s.endAttempt_recCount _ _, s.endAttempt_tecCount _ _⟩

/-- Settles O23: the checks are those of `legal`, and the write sets the tuple of the phase. -/
theorem bitTimingWriteChecksAndWrites : Obligations.BitTimingWriteChecksAndWrites := by
  intro p t s r legal
  have hl : legal ↔ s.mode = .config ∧ s.timingLegal p t = true := by
    rw [s.timingLegal_iff]
    cases p <;> rfl
  refine ⟨fun h => (execBtWrite_of_legal (hl.mp h)).trans ?_, fun h => execBtWrite_of_illegal (mt hl.mpr h)⟩
  cases p <;> rfl

/-- Settles O24: a word is read back as its tuple, and a BT_WRITE that answers OK has written the tuple. -/
theorem bitTimingReadsBack : Obligations.BitTimingReadsBack := by
  intro p s
  refine ⟨⟨(s.timing p).word, rfl, ?_⟩, fun t u w0 w1 he h hok => ?_⟩
  · exact (BitTiming.ofWord_word _).trans (by cases p <;> rfl)
  · obtain ⟨-, hw⟩ : (Instr.btWrite p t).w0 = w0 ∧ t.word = w1 := by simpa [encode, Instr.tailWords] using he
    rw [← hw, ← timing_of_execBtWrite h hok]
    rfl

/-- Settles O25: in configuration state and below NFILT the named filter is written, else a check fails. -/
theorem filterWriteChangesOneFilter : Obligations.FilterWriteChangesOneFilter := by
  intro index mt id mask s
  refine ⟨fun hm hi => ⟨_, execFilterWrite_of_config hm hi mt id mask, rfl, fun j => ?_⟩,
    fun h => execFilterWrite_of_failedCheck h mt id mask⟩
  simp only [State.respond_filt, List.getElem?_modify, eq_comm (a := index.toNat)]
  by_cases hj : j = index.toNat <;> simp [hj]

/-- Settles O26: the selected enables are written one by one; the same selection again passes the same check. -/
theorem filterEnableChangesTheSelectedEnables : Obligations.FilterEnableChangesTheSelectedEnables := by
  intro sel en s
  refine ⟨fun h => ⟨_, execFilterEnable_of_present h en, rfl, getElem?_enableSelected sel en s.filt, ?_⟩,
    fun i hi hb => execFilterEnable_of_absent hi hb en⟩
  refine (execFilterEnable_of_present (by simpa using h) en).trans ?_
  simp only [State.respond_filt, enableSelected_enableSelected]
  rfl

/-- Settles O27: the three words hold the filter's fields and no other bit. -/
theorem filterReadAnswersTheFilter : Obligations.FilterReadAnswersTheFilter := by
  intro index s
  refine ⟨fun f hf => ?_, fun hn => ?_⟩
  · obtain ⟨hen, h1, hmt, h6⟩ := filterWord_reads f
    obtain ⟨hid, hid29⟩ := idWord_reads f.id
    obtain ⟨hmask, hmask29⟩ := idWord_reads f.mask
    refine ⟨_, _, _, ?_, hen, h1, hmt.trans ?_, h6, hid, hid29, hmask, hmask29⟩
    · rw [(filterRead_answersOnly index).exec s, State.filterAnswer_of_some hf]
      rfl
    · cases f.maskType <;> rfl
  · rw [(filterRead_answersOnly index).exec s, State.filterAnswer_of_absent hn]
    rfl

/-- Settles O28: both lead to `resetBlock`, whose draws are in their ranges. -/
theorem resetPutsTheResetState : Obligations.ResetPutsTheResetState := by
  intro s
  obtain ⟨-, hstb, hfilt⟩ := sameSizes_resetBlock s
  have hafwl := (afwlLegal_iff _).mp (afwlLegal_drawAfwl (Config.resetDraw s.draws))
  have hewl : (drawEwl (Config.resetDraw s.draws)).toNat ≤ 255 := Nat.le_of_lt_succ (BitVec.isLt _)
  refine ⟨s.resetBlock, rfl, rfl, rfl, rfl, rfl, hafwl, ⟨one_le_drawEwl _, hewl⟩, hfilt,
    ⟨slotPtr_drawTtcCfg_le _ _ _, refId_drawTtcCfg_lt, fun hp => drawPresc_mem hp _⟩, ⟨rfl, rfl⟩,
    ⟨hstb, fun sl hsl => ?_⟩, rfl, rfl, rfl, rfl, rfl, rfl, rfl, rfl, rfl, rfl, rfl, rfl, rfl, rfl, rfl, rfl, rfl, rfl⟩
  obtain rfl : sl = emptySlot := List.eq_of_mem_replicate hsl
  exact ⟨rfl, rfl⟩

/-- Settles O35: the frame is dropped where it is single-shot or its abort is honoured, else queued again. -/
theorem failedAttemptDropsOrRequeuesTheFrame : Obligations.FailedAttemptDropsOrRequeuesTheFrame := by
  intro s k c d hk t single honoured
  have hs : single ↔ s.singleShot k = true := (s.singleShot_iff k).symm
  have hh : honoured ↔ s.singleShot k = false ∧ s.honours k c d = true := by
    rw [s.honours_iff, ← Bool.not_eq_true, ← hs]
  have hd : single ∨ honoured ↔ s.drops k c d = true := by
    rw [hs, hh, State.drops, Bool.or_eq_true]
    cases s.singleShot k <;> simp
  refine ⟨s.failAttempt_frame k c d, s.stb_length_failAttempt k c d, fun j hj => s.slot_failAttempt_other hj c d,
    fun h => ?_, fun h => ?_, fun h => ?_, fun hns hnh => ?_⟩
  · rw [hd] at h
    refine ⟨?_, ?_, ?_, State.stbEn_failAttempt_of_last h⟩
    · rw [State.slot_failAttempt_self hk, h]; rfl
    · rw [State.ptbEn_failAttempt, h]; simp
    · rw [State.released_failAttempt, h]; simp
  · rw [hs] at h
    refine ⟨?_, fun hf => (State.stbEn_failAttempt_of_frame hf).trans (by simp [h])⟩
    rw [State.flags_failAttempt, h]
    rfl
  · obtain ⟨hns, hhon⟩ := hh.mp h
    refine ⟨?_, fun hf => (State.stbEn_failAttempt_of_frame hf).trans (by simp [hns])⟩
    rw [State.flags_failAttempt, hns, hhon]
    rfl
  · have hkept : s.drops k c d = false := by
      rw [← Bool.not_eq_true, ← hd]
      exact not_or.mpr ⟨hns, hnh⟩
    have ht : t = s.modifySlot k Slot.requeued := State.failAttempt_of_kept hkept
    rw [ht]
    exact ⟨State.slot_modifySlot_self (State.le_nstb_of_transmitting hk) _, s.modifySlot_ptbEn k _,
      s.modifySlot_stbEn k _, s.modifySlot_released k _, s.modifySlot_flags k _⟩

/-- Settles O21: each of the three commands writes its register and the response. -/
theorem modeAndOptionCommandsWriteOneRegister : Obligations.ModeAndOptionCommandsWriteOneRegister :=
  fun _ => ⟨rfl, fun _ => rfl, fun _ => rfl⟩

end Sys2Proof.Machine
end

section
/-! SUPPORT. TX_LOAD into the STB and TX_ENABLE (spec/41_transmit.md R93 to R95). -/

namespace Sys2Proof.Machine

theorem State.load_stb_of_target {s : State} {k : Nat} (h : s.stbTarget = some k) (f : TxFrame) :
    s.load .stb f =
      { s with
        stb := s.stb.set k (s.loadedSlot f), fillPtr := (k + 1) % s.nstb
        nextSeq := s.nextSeq + 1 }.respond .ok [] := by
  simp only [State.load, h]

/-- The buffer a TX_ENABLE selects holds no frame (41 R95). -/
def State.selectedEmpty (s : State) : TxSelect → Bool
  | .ptb => s.ptb.isEmpty
  | .stbOne | .stbAll => s.stb.all Slot.isEmpty

/-- The enable that a TX_ENABLE sets (41 R95). -/
def State.enabled (s : State) : TxSelect → State
  | .ptb => { s with ptbEn := true }
  | .stbOne => { s with stbEn := .one }
  | .stbAll => { s with stbEn := .all }

theorem execTxEnable_of_config {s : State} (h : s.mode = .config) (sel : TxSelect) :
    execTxEnable sel s = .next (s.fail .configError) := by
  simp [execTxEnable, h]

/-- In normal state the enable is set unless the buffer is empty (41 R95, D51). -/
theorem execTxEnable_of_normal {s : State} (h : s.mode = .normal) (sel : TxSelect) :
    execTxEnable sel s = .next ((if s.selectedEmpty sel then s else s.enabled sel).respond .ok []) := by
  cases sel <;> exact congrArg _ (if_neg (not_not.mpr h))

theorem execTxEnable_of_frame {s : State} {sel : TxSelect} (hm : s.mode = .normal) (h : s.selectedEmpty sel = false) :
    execTxEnable sel s = .next ((s.enabled sel).respond .ok []) := by
  simp [execTxEnable_of_normal hm, h]

theorem execTxEnable_of_empty {s : State} {sel : TxSelect} (hm : s.mode = .normal) (h : s.selectedEmpty sel = true) :
    execTxEnable sel s = .next (s.respond .ok []) := by
  simp [execTxEnable_of_normal hm, h]

end Sys2Proof.Machine
end

section
/-! SUPPORT. The STB's book-keeping (spec/41_transmit.md R88), and TX_ABORT slot by slot (R96). -/

namespace Sys2Proof.Machine

/-- The STB enable never outlives the last STB frame (41 R88). -/
theorem State.stbEn_stbBook_of_last {s : State} (h : ∀ j, (s.slot (j + 1)).st = .empty) : s.stbBook.stbEn = .off := by
  rw [State.stbBook_stbEn, if_pos (s.stb_all_empty_iff.mpr h)]

theorem State.stbEn_stbBook_of_frame {s : State} (h : ∃ j, (s.slot (j + 1)).st ≠ .empty) :
    s.stbBook.stbEn = s.stbEn := by
  rw [State.stbBook_stbEn, if_neg]
  rwa [s.stb_all_empty_iff, not_forall]

theorem Slot.abort_eq (sl : Slot) : sl.abort =
    if sl.st = .queued then { sl with st := .empty }
    else if sl.st = .transmitting then { sl with abortReq := true }
    else sl := by
  obtain ⟨h, ha⟩ | ⟨h, ha⟩ | ⟨h, ha⟩ := sl.abort_cases <;> simp [h, ha]

/-- An abort changes the state of a Queued slot only. -/
theorem Slot.st_abort_eq_iff (sl : Slot) : sl.abort.st = sl.st ↔ sl.st ≠ .queued := by
  obtain ⟨h, ha⟩ | ⟨h, ha⟩ | ⟨h, ha⟩ := sl.abort_cases <;> simp [h, ha]

/-- The frames TX_ABORT removes are those whose slot changes its state (41 R96). -/
theorem State.abortRemoves_iff (s : State) (p q : Bool) (k : Nat) :
    s.abortRemoves p q k = true ↔ ((s.abortSlots p q).slot k).st ≠ (s.slot k).st := by
  rw [State.slot_abortSlots, State.abortRemoves, Bool.and_eq_true, Slot.isQueued_iff]
  by_cases hsel : (if k = 0 then p else q) = true
  · rw [if_pos hsel, ne_eq, Slot.st_abort_eq_iff, not_not]
    exact and_iff_right hsel
  · rw [if_neg hsel]
    simp [hsel]

theorem State.abortRemovesAny_iff (s : State) (p q : Bool) :
    s.abortRemovesAny p q = true ↔ ∃ k, s.abortRemoves p q k = true := by
  have hstb : s.stb.any Slot.isQueued = true ↔ ∃ j, (s.slot (j + 1)).isQueued = true := by
    simp only [List.any_eq_true, State.slot_succ]
    exact exists_mem_iff_getD (by decide)
  rw [State.abortRemovesAny, Bool.or_eq_true, Bool.and_eq_true, Bool.and_eq_true, hstb]
  constructor
  · rintro (⟨hp, h0⟩ | ⟨hq, j, hj⟩)
    · exact ⟨0, by simp [State.abortRemoves, hp, h0]⟩
    · exact ⟨j + 1, by simp only [State.abortRemoves, hj]; simp [hq]⟩
  · rintro ⟨k, hk⟩
    obtain ⟨hsel, hk⟩ := Bool.and_eq_true_iff.mp hk
    cases k with
    | zero => exact .inl ⟨hsel, hk⟩
    | succ j => exact .inr ⟨hsel, j, hk⟩

@[simp] theorem State.slot_aborted (s : State) (p q : Bool) : (s.aborted p q).slot = (s.abortSlots p q).slot :=
  State.slot_congr (by simp [State.aborted]) (by simp [State.aborted])

/-- The block after a TX_ABORT (41 R96). -/
def State.afterAbort (s : State) (p q : Bool) : State :=
  ((s.aborted p q).setFlagIf (s.abortRemovesAny p q) .txAborted).respond .ok []

@[simp] theorem State.slot_afterAbort (s : State) (p q : Bool) :
    (s.afterAbort p q).slot = (s.abortSlots p q).slot := by
  simp [State.afterAbort]

theorem State.afterAbort_frame (s : State) (p q : Bool) : s.afterAbort p q =
    { s with
      ptb := (s.afterAbort p q).ptb, stb := (s.afterAbort p q).stb, ptbEn := (s.afterAbort p q).ptbEn,
      stbEn := (s.afterAbort p q).stbEn, released := (s.afterAbort p q).released,
      flags := (s.afterAbort p q).flags, resp := ⟨.ok, []⟩ } := by
  apply State.ext <;> simp [State.afterAbort, State.aborted]

theorem State.stb_length_afterAbort (s : State) (p q : Bool) : (s.afterAbort p q).stb.length = s.stb.length := by
  simp [State.afterAbort, State.aborted]

theorem State.slot_afterAbort_eq (s : State) (p q : Bool) (k : Nat) : (s.afterAbort p q).slot k =
    if (if k = 0 then p else q) = true ∧ (s.slot k).st = .queued then { s.slot k with st := .empty }
    else if (if k = 0 then p else q) = true ∧ (s.slot k).st = .transmitting then { s.slot k with abortReq := true }
    else s.slot k := by
  rw [State.slot_afterAbort, State.slot_abortSlots, Slot.abort_eq]
  by_cases hsel : (if k = 0 then p else q) = true
  · simp only [hsel, if_true, true_and]
  · simp only [hsel, false_and, if_false, Bool.false_eq_true]

theorem State.ptbEn_afterAbort (s : State) (p q : Bool) :
    (s.afterAbort p q).ptbEn = (s.ptbEn && !(p && (s.afterAbort p q).ptb.isEmpty)) := by
  simp [State.afterAbort, State.aborted]

theorem State.stbEn_afterAbort_of_last {s : State} {p q : Bool}
    (h : ∀ j, ((s.afterAbort p q).slot (j + 1)).st = .empty) : (s.afterAbort p q).stbEn = .off := by
  simp only [State.slot_afterAbort] at h
  simp only [State.afterAbort, State.respond_stbEn, State.setFlagIf_stbEn, State.aborted]
  exact State.stbEn_stbBook_of_last h

theorem State.stbEn_afterAbort_of_frame {s : State} {p q : Bool}
    (h : ∃ j, ((s.afterAbort p q).slot (j + 1)).st ≠ .empty) : (s.afterAbort p q).stbEn = s.stbEn := by
  simp only [State.slot_afterAbort] at h
  simp only [State.afterAbort, State.respond_stbEn, State.setFlagIf_stbEn, State.aborted]
  exact State.stbEn_stbBook_of_frame h

/-- The release serves the designated slot's frame and ends with it (44 R125). -/
theorem State.released_afterAbort (s : State) (p q : Bool) : (s.afterAbort p q).released =
    (s.released && ((s.afterAbort p q).slot s.ttcCfg.slotPtr.toNat).st == (s.slot s.ttcCfg.slotPtr.toNat).st) := by
  have hr : (s.afterAbort p q).released = (s.released && !s.abortRemoves p q s.ttcCfg.slotPtr.toNat) := by
    simp [State.afterAbort, State.aborted, State.abortSlots]
  have hs := s.abortRemoves_iff p q s.ttcCfg.slotPtr.toNat
  rw [hr, State.slot_afterAbort]
  congr 1
  rw [Bool.eq_iff_iff, Bool.not_eq_true', beq_iff_eq, ← Bool.not_eq_true, hs, not_not]

theorem State.flags_afterAbort (s : State) (p q : Bool) : (s.afterAbort p q).flags =
    if s.abortRemovesAny p q then s.flags ||| Flag.txAborted.mask else s.flags := by
  simp [State.afterAbort, State.aborted]

/-- TX_ABORT removes a frame exactly where some slot changes its state (41 R96). -/
theorem State.abortRemovesAny_iff_afterAbort (s : State) (p q : Bool) :
    s.abortRemovesAny p q = true ↔ ∃ k, (s.slot k).st ≠ ((s.afterAbort p q).slot k).st := by
  simp only [State.abortRemovesAny_iff, State.abortRemoves_iff, State.slot_afterAbort, ne_comm]

end Sys2Proof.Machine
end

section
/-! SUPPORT. The word of TX_STATUS_READ, field by field (spec/41_transmit.md R97). -/

namespace Sys2Proof.Machine

/-- The number of STB slots that hold a frame. -/
def State.stbUsed (s : State) : Nat := (s.stb.filter fun sl => sl.st != .empty).length

theorem State.stbUsed_le (s : State) : s.stbUsed ≤ s.stb.length := List.length_filter_le _ _

theorem State.txStatusWord_toNat (s : State) : s.txStatusWord.toNat =
    s.busy.toNat * 2 ^ 22 + s.fillPtr % 2 ^ 8 * 2 ^ 14 + (decide (s.stbFree = 0)).toNat * 2 ^ 13
      + s.stbUsed % 2 ^ 8 * 2 ^ 5 + s.stbEn.code.toNat * 2 ^ 3 + s.ptbEn.toNat * 2 ^ 2 + s.ptb.st.code.toNat := by
  have hu : (s.stb.countP fun sl => !sl.isEmpty) = s.stbUsed := List.countP_eq_length_filter
  simp only [State.txStatusWord, append_toNat, bit1_toNat, BitVec.toNat_ofNat, hu]
  omega

/-- Every field of the status word (41 R97). -/
theorem State.txStatusWord_reads (s : State) :
    field s.txStatusWord 0 2 = s.ptb.st.code ∧ bitAt s.txStatusWord 2 = s.ptbEn
      ∧ field s.txStatusWord 3 2 = s.stbEn.code ∧ (field s.txStatusWord 5 8).toNat = s.stbUsed % 2 ^ 8
      ∧ bitAt s.txStatusWord 13 = decide (s.stbFree = 0) ∧ (field s.txStatusWord 14 8).toNat = s.fillPtr % 2 ^ 8
      ∧ bitAt s.txStatusWord 22 = s.busy ∧ field s.txStatusWord 23 9 = 0 := by
  have hw := s.txStatusWord_toNat
  have hst := s.ptb.st.code.isLt
  have hpe := s.ptbEn.toNat_lt
  have hse := s.stbEn.code.isLt
  have hfull := (decide (s.stbFree = 0)).toNat_lt
  have hbusy := s.busy.toNat_lt
  have hzero : s.txStatusWord.toNat / 2 ^ 23 % 2 ^ 9 = 0 := by omega
  refine ⟨field_eq_of_toNat (by omega), bitAt_eq_of_toNat (by omega), field_eq_of_toNat (by omega), ?_,
    bitAt_eq_of_toNat (by omega), ?_, bitAt_eq_of_toNat (by omega), field_eq_of_toNat hzero⟩
  · rw [field_toNat]; omega
  · rw [field_toNat]; omega

theorem State.stbFree_eq_zero_iff (s : State) : s.stbFree = 0 ↔ ∀ sl ∈ s.stb, sl.st ≠ .empty := by
  simp [State.stbFree, List.countP_eq_zero]

end Sys2Proof.Machine
end

section
/-! SUPPORT. The events of an attempt (spec/41_transmit.md R98 to R101) for the slot they act on. -/

namespace Sys2Proof.Machine

/-- A change of one slot leaves every field but the two buffers alone. -/
theorem State.modifySlot_frame (s : State) (k : Nat) (f : Slot → Slot) :
    s.modifySlot k f = { s with ptb := (s.modifySlot k f).ptb, stb := (s.modifySlot k f).stb } := by
  cases k <;> rfl

theorem runEvent_txStart_of_select {s : State} {k : Nat} (hm : s.mode = .normal) (hb : s.busOff = false)
    (hidle : ∀ j, (s.slot j).st ≠ .transmitting) (hk : s.select = some k) :
    runEvent .txStart s = .next (s.modifySlot k Slot.started) := by
  have hcan := (canTxStart_iff s).mpr ⟨hm, hb, hidle, k, (State.select_eq_some hk).1⟩
  have he : evTxStart s = s.modifySlot k Slot.started := by simp only [evTxStart, hk]
  rw [← he]
  exact if_pos hcan

/-- The order of 41 R89: under ID priority by identifier and then stamp, under FIFO order by stamp. -/
theorem State.order_of_goesBefore_eq_false {s : State} {j k : Nat} (h : s.goesBefore j k = false) :
    (s.txOpt.stbPrio = false → (s.slot k).seq ≤ (s.slot j).seq)
      ∧ (s.txOpt.stbPrio = true → (s.slot k).frame.id.toNat < (s.slot j).frame.id.toNat
        ∨ (s.slot k).frame.id = (s.slot j).frame.id ∧ (s.slot k).seq ≤ (s.slot j).seq) := by
  rw [State.goesBefore_eq_false_iff, BitVec.toNat_inj] at h
  exact ⟨fun hp => by simpa [hp] using h, fun hp => by simpa only [hp, if_true] using h⟩

/-- An event that ends an attempt occurs while a slot is Transmitting. -/
theorem runEvent_of_transmitting {s : State} {k : Nat} {e : Event} (hk : (s.slot k).st = .transmitting)
    (he : eventCanOccur e s = s.busy) : runEvent e s = .next (eventEffect e s) :=
  (runEvent_of_iff (he ▸ s.busy_iff)).1 ⟨k, hk⟩

theorem evTxSuccess_of_transmitting {s : State} {k : Nat} (h1 : s.inv1 = true) (hk : (s.slot k).st = .transmitting) :
    evTxSuccess s = (s.txCompleted k).errUpdate .txOk default := by
  simp only [evTxSuccess, State.txSlot_eq h1 hk]

/-- What an event records beside the slots leaves the attempt in progress where it is. -/
theorem State.endAttempt_of_sameSlots {s u : State} {k : Nat} (hp : u.ptb = s.ptb) (hs : u.stb = s.stb)
    (h1 : s.inv1 = true) (hk : (s.slot k).st = .transmitting) (c : FailCause) (d : AbortDraw) :
    u.endAttempt c d = u.failAttempt k c d := by
  have hslot : u.txSlot = s.txSlot := by simp only [State.txSlot, hp, hs]
  exact State.endAttempt_of_txSlot (hslot.trans (State.txSlot_eq h1 hk)) c d

theorem evTxArbLost_of_transmitting {s : State} {k : Nat} (h1 : s.inv1 = true) (hk : (s.slot k).st = .transmitting)
    (pos : BitVec 5) (d : AbortDraw) :
    evTxArbLost pos d s = ({ s with alc := pos }.setFlag .arbLost).failAttempt k .arbLost d := by
  rw [evTxArbLost, State.endAttempt_of_sameSlots ?_ ?_ h1 hk] <;> rfl

theorem evTxError_of_transmitting {s : State} {k : Nat} (h1 : s.inv1 = true) (hk : (s.slot k).st = .transmitting)
    (t : ErrorType) (d : AbortDraw) : evTxError t d s =
      (({ s with lastErrorType := t }.setFlag .busError).failAttempt k .txError d).errUpdate (.txErr t) d := by
  rw [evTxError, State.endAttempt_of_sameSlots ?_ ?_ h1 hk] <;> rfl

/-! ### The end of a frame by success (41 R99) -/

theorem State.txCompleted_frame (s : State) (k : Nat) : s.txCompleted k =
    { s with
      ptb := (s.txCompleted k).ptb, stb := (s.txCompleted k).stb, ptbEn := (s.txCompleted k).ptbEn,
      stbEn := (s.txCompleted k).stbEn, released := (s.txCompleted k).released,
      flags := (s.txCompleted k).flags } := by
  apply State.ext <;> simp

theorem State.nstb_txCompleted (s : State) (k : Nat) : (s.txCompleted k).nstb = s.nstb := by
  rw [← s.nstb_modifySlot k Slot.emptied]
  simp [State.nstb, State.txCompleted]

theorem State.flags_txCompleted (s : State) (k : Nat) :
    (s.txCompleted k).flags = s.flags ||| (if k = 0 then Flag.txPtbDone else Flag.txStbDone).mask := by
  simp [State.txCompleted]

theorem State.ptbEn_txCompleted (s : State) (k : Nat) :
    (s.txCompleted k).ptbEn = (s.ptbEn && decide (k ≠ 0)) := by
  by_cases hk : k = 0 <;> simp [State.txCompleted, hk]

theorem State.released_txCompleted (s : State) (k : Nat) :
    (s.txCompleted k).released = (s.released && decide (k ≠ s.ttcCfg.slotPtr.toNat)) := by
  by_cases hk : k = s.ttcCfg.slotPtr.toNat <;> simp [State.txCompleted, hk]

theorem State.stbEn_txCompleted_of_last {s : State} {k : Nat}
    (h : ∀ j, ((s.txCompleted k).slot (j + 1)).st = .empty) : (s.txCompleted k).stbEn = .off := by
  rw [State.txCompleted, State.slot_ttcSlotEmptied, State.slot_stbBook] at h
  rw [State.txCompleted, State.ttcSlotEmptied_stbEn]
  exact State.stbEn_stbBook_of_last h

theorem State.stbEn_txCompleted_of_frame {s : State} {k : Nat}
    (h : ∃ j, ((s.txCompleted k).slot (j + 1)).st ≠ .empty) :
    (s.txCompleted k).stbEn = if k ≠ 0 ∧ s.stbEn = .one then .off else s.stbEn := by
  rw [State.txCompleted, State.slot_ttcSlotEmptied, State.slot_stbBook] at h
  rw [State.txCompleted, State.ttcSlotEmptied_stbEn, State.stbEn_stbBook_of_frame h]
  simp

end Sys2Proof.Machine
end

section
/-! The statements of spec/41_transmit.md settled. -/

namespace Sys2Proof.Machine

/-- Settles O31: with an Empty STB slot the load's target is one, the first from the fill pointer on. -/
theorem transmitLoadFillsTheNextStbSlot : Obligations.TransmitLoadFillsTheNextStbSlot := by
  intro f s hm hw ⟨sl, hsl, he⟩
  cases hk : s.stbTarget with
  | none => exact absurd he (s.stbTarget_eq_none_iff.mp hk sl hsl)
  | some k =>
    obtain ⟨i, hi, hki, -, hempty, hbefore⟩ := State.stbTarget_eq_some hk
    exact ⟨i, k, hi, hki, hempty, hbefore,
      (execTxLoad_of_wellFormed hm hw .stb).trans (congrArg _ (State.load_stb_of_target hk f))⟩

/-- Settles O33: the slots one by one; a frame is removed where a slot changes its state. -/
theorem transmitAbortRemovesQueuedFrames : Obligations.TransmitAbortRemovesQueuedFrames := by
  intro p q s
  refine ⟨s.afterAbort p q, execTxAbort_eq p q s, s.afterAbort_frame p q, s.stb_length_afterAbort p q,
    s.slot_afterAbort_eq p q, s.ptbEn_afterAbort p q, State.stbEn_afterAbort_of_last, State.stbEn_afterAbort_of_frame,
    s.released_afterAbort p q, fun h => ?_, fun h => ?_⟩
  · exact (s.flags_afterAbort p q).trans (if_pos ((s.abortRemovesAny_iff_afterAbort p q).mpr h))
  · refine (s.flags_afterAbort p q).trans (if_neg ?_)
    rw [s.abortRemovesAny_iff_afterAbort, not_exists]
    exact fun k => not_not.mpr (h k)

/-- Settles O34: the word's fields, with the two counts below 256 where the statement says so. -/
theorem transmitStatusWordHasItsFields : Obligations.TransmitStatusWordHasItsFields := by
  intro s
  obtain ⟨hst, hpe, hse, hused, hfull, hfill, hbusy, hzero⟩ := s.txStatusWord_reads
  refine ⟨s.txStatusWord, rfl, hst.trans ?_, hpe, hse.trans ?_, fun hn => ?_, ?_, fun hf => ?_, ?_, hzero⟩
  · cases s.ptb.st <;> rfl
  · cases s.stbEn <;> rfl
  · exact hused.trans (Nat.mod_eq_of_lt (s.stbUsed_le.trans_lt hn))
  · rw [hfull, decide_eq_true_eq, s.stbFree_eq_zero_iff]
  · exact hfill.trans (Nat.mod_eq_of_lt hf)
  · rw [hbusy, s.busy_iff]

/-- Settles O36: the scheduler finds a pending slot, the PTB first, and the attempt starts there. -/
theorem transmitStartSendsTheSchedulersChoice : Obligations.TransmitStartSendsTheSchedulersChoice := by
  intro s pending hm hb hidle hex
  have hp : ∀ k, pending k ↔ s.pending k = true := fun k => (s.pending_iff k).symm
  simp only [hp] at hex ⊢
  obtain ⟨k, hk⟩ := Option.isSome_iff_exists.mp (s.select_isSome_iff.mpr hex)
  obtain ⟨hpk, hptb, hstb⟩ := State.select_eq_some hk
  have hle : k ≤ s.nstb := State.le_nstb_of_st_ne (by rw [State.queued_of_pending hpk]; decide)
  refine ⟨k, s.modifySlot k Slot.started, runEvent_txStart_of_select hm hb hidle hk, s.modifySlot_frame k _,
    s.nstb_modifySlot k _, hpk, State.slot_modifySlot_self hle _, fun j hj => State.slot_modifySlot_other hj s _,
    hptb, fun h0 j hj => ?_⟩
  exact State.order_of_goesBefore_eq_false ((hstb (by simpa using h0)).2 j hj)

/-- Settles O37: under I1 the event ends the frame of slot `k`, and the success is counted on the state it leaves. -/
theorem transmitSuccessEmptiesTheSlot : Obligations.TransmitSuccessEmptiesTheSlot := by
  intro s k h1 hk
  refine ⟨s.txCompleted k, ?_, s.txCompleted_frame k, s.nstb_txCompleted k, ?_, fun j hj => ?_, ?_,
    s.ptbEn_txCompleted k, s.released_txCompleted k, State.stbEn_txCompleted_of_last,
    State.stbEn_txCompleted_of_frame⟩
  · exact (runEvent_of_transmitting hk rfl).trans (congrArg _ (evTxSuccess_of_transmitting h1 hk))
  · rw [State.slot_txCompleted, if_pos ⟨rfl, State.le_nstb_of_transmitting hk⟩]
    rfl
  · rw [State.slot_txCompleted, if_neg fun h => hj h.1]
  · rw [State.flags_txCompleted]
    split <;> rfl

/-- Settles O32: outside normal state a check fails; in it the enable follows the buffer. -/
theorem transmitEnableNeedsAFrame : Obligations.TransmitEnableNeedsAFrame := by
  intro sel s
  refine ⟨fun hm => execTxEnable_of_config hm sel, fun hm h => ?_, fun hm h => ?_, fun hm h => ?_, fun hm h => ?_⟩
  · exact execTxEnable_of_frame (sel := .ptb) hm (s.ptb.isEmpty_eq_false_iff.mpr h)
  · exact execTxEnable_of_empty (sel := .ptb) hm (s.ptb.isEmpty_iff.mpr h)
  · have he : s.stb.all Slot.isEmpty = false := by simpa using h
    exact ⟨execTxEnable_of_frame (sel := .stbOne) hm he, execTxEnable_of_frame (sel := .stbAll) hm he⟩
  · have he : s.stb.all Slot.isEmpty = true := by simpa using h
    exact ⟨execTxEnable_of_empty (sel := .stbOne) hm he, execTxEnable_of_empty (sel := .stbAll) hm he⟩

/-- Settles O38: what the events record leaves the Transmitting slot in place, and its attempt ends. -/
theorem lostAndFailedAttemptsAreRecorded : Obligations.LostAndFailedAttemptsAreRecorded := by
  intro s k d h1 hk
  refine ⟨fun pos => ?_, fun t ht => ?_⟩
  · exact (runEvent_of_transmitting hk rfl).trans (congrArg _ (evTxArbLost_of_transmitting h1 hk pos d))
  · have hcan : eventCanOccur (.txError t d) s = true := (canTxError_iff t s).mpr ⟨⟨k, hk⟩, ht⟩
    exact (if_pos hcan).trans (congrArg _ (evTxError_of_transmitting h1 hk t d))

end Sys2Proof.Machine
end

section
/-! SUPPORT. The limit commands, RX_RELEASE and the words of the receive commands (spec/42_receive.md R105 to R109,
spec/43_error.md R119). -/

namespace Sys2Proof.Machine

theorem execRxSetConfig_of_legal {a : BitVec 4} (h : afwlLegal a = true) (p : RxPolicy) (s : State) :
    execRxSetConfig a p s = .next ({ s with afwl := a, rxPolicy := p }.respond .ok []) := by
  simp [execRxSetConfig, h]

theorem execRxSetConfig_of_illegal {a : BitVec 4} (h : afwlLegal a = false) (p : RxPolicy) (s : State) :
    execRxSetConfig a p s = .next (s.fail .configError) := by
  simp [execRxSetConfig, h]

theorem execErrSetWarnLimit_of_pos {l : BitVec 8} (h : 1 ≤ l.toNat) (s : State) :
    execErrSetWarnLimit l s = .next ({ s with ewl := l }.respond .ok []) := by
  rw [execErrSetWarnLimit, if_neg (Nat.not_lt.mpr h)]

theorem execErrSetWarnLimit_zero (s : State) : execErrSetWarnLimit 0 s = .next (s.fail .configError) := rfl

theorem exec_rxRelease_of_nil {s : State} (h : s.rx = []) : exec .rxRelease s = .next (s.fail .empty) := by
  rw [exec, execRxRelease, h]

theorem exec_rxRelease_of_cons {s : State} {e : RxFrame} {rest : List RxFrame} (h : s.rx = e :: rest) :
    exec .rxRelease s = .next (({ s with rx := rest }.clearFlag .rxOverflow).respond .ok []) := by
  rw [exec, execRxRelease, h]

/-- What stands in the second descriptor word of an RX_PEEK (30 R64 D2). -/
theorem rxD2_reads (e : RxFrame) : field (rxD2 e) 0 4 = e.frame.dlc ∧ bitAt (rxD2 e) 4 = e.frame.fdf
    ∧ bitAt (rxD2 e) 5 = e.frame.brs ∧ field (rxD2 e) 6 3 = e.errorType.code ∧ field (rxD2 e) 9 7 = 0
    ∧ field (rxD2 e) 16 16 = e.cycleTime := by
  have hw := rxD2_toNat e
  have hdlc := e.frame.dlc.isLt
  have hfdf := e.frame.fdf.toNat_lt
  have hbrs := e.frame.brs.toNat_lt
  have het := e.errorType.code.isLt
  have hct := e.cycleTime.isLt
  have h9 : (rxD2 e).toNat / 2 ^ 9 % 2 ^ 7 = 0 := by omega
  exact ⟨field_eq_of_toNat (by omega), bitAt_eq_of_toNat (by omega), bitAt_eq_of_toNat (by omega),
    field_eq_of_toNat (by omega), field_eq_of_toNat h9, field_eq_of_toNat (by omega)⟩

theorem State.rxStatusWord_toNat (s : State) : s.rxStatusWord.toNat =
    (s.flag .rxOverflow).toNat * 2 ^ 11 + s.rxPolicy.bit.toNat * 2 ^ 10 + s.afwl.toNat * 2 ^ 6
      + s.rxStateCode.toNat * 2 ^ 4 + s.rx.length % 2 ^ 4 := by
  simp only [State.rxStatusWord, append_toNat, bit1_toNat, BitVec.toNat_ofNat]
  omega

/-- Every field of the status word (42 R109). -/
theorem State.rxStatusWord_reads (s : State) : (field s.rxStatusWord 0 4).toNat = s.rx.length % 2 ^ 4
    ∧ field s.rxStatusWord 4 2 = s.rxStateCode ∧ field s.rxStatusWord 6 4 = s.afwl
    ∧ bitAt s.rxStatusWord 10 = s.rxPolicy.bit ∧ bitAt s.rxStatusWord 11 = s.flag .rxOverflow
    ∧ field s.rxStatusWord 12 20 = 0 := by
  have hw := s.rxStatusWord_toNat
  have hov := (s.flag .rxOverflow).toNat_lt
  have hpol := s.rxPolicy.bit.toNat_lt
  have hlim := s.afwl.isLt
  have hcode := s.rxStateCode.isLt
  have hzero : s.rxStatusWord.toNat / 2 ^ 12 % 2 ^ 20 = 0 := by omega
  refine ⟨?_, field_eq_of_toNat (by omega), field_eq_of_toNat (by omega), bitAt_eq_of_toNat (by omega),
    bitAt_eq_of_toNat (by omega), field_eq_of_toNat hzero⟩
  rw [field_toNat]
  omega

/-- The four FIFO states exclude each other (42 R105). -/
theorem State.rxStateCode_iff {s : State} (h : s.rx.length ≤ 8) :
    (s.rxStateCode = 0 ↔ s.rx.length = 0) ∧ (s.rxStateCode = 3 ↔ s.rx.length = 8)
      ∧ (s.rxStateCode = 1 ↔ 0 < s.rx.length ∧ s.rx.length < 8 ∧ s.rx.length < s.afwl.toNat)
      ∧ (s.rxStateCode = 2 ↔ 0 < s.rx.length ∧ s.rx.length < 8 ∧ s.afwl.toNat ≤ s.rx.length) := by
  unfold State.rxStateCode Config.nrx
  split_ifs with hempty hfull hbelow
  all_goals
    simp (decide := true) only [true_iff, false_iff]
    omega

end Sys2Proof.Machine
end

section
/-! SUPPORT. Acceptance bit by bit (spec/42_receive.md R103, R104). -/

namespace Sys2Proof.Machine

/-- A masked difference is 0 exactly where no masked bit differs. -/
theorem xor_and_eq_zero_iff {n : Nat} (a b m : BitVec n) :
    (a ^^^ b) &&& m = 0#n ↔ ∀ i, i < n → m.getLsbD i = true → a.getLsbD i = b.getLsbD i := by
  rw [BitVec.eq_of_getLsbD_eq_iff]
  refine forall₂_congr fun i _ => ?_
  rw [BitVec.getLsbD_and, BitVec.getLsbD_xor, BitVec.getLsbD_zero]
  cases a.getLsbD i <;> cases b.getLsbD i <;> cases m.getLsbD i <;> decide

/-- The identifier bits of a frame: 29 of an extended, 11 of a standard one (00 R15). -/
def idWidth (ide : Bool) : Nat := if ide then 29 else 11

theorem idWidth_le (ide : Bool) : idWidth ide ≤ 29 := by cases ide <;> decide

/-- The width mask of 42 R103. -/
theorem getLsbD_widthMask (ide : Bool) (i : Nat) :
    (if ide then 0x1FFFFFFF else 0x7FF : BitVec 29).getLsbD i = decide (i < idWidth ide) := by
  by_cases hi : i < 29
  · revert i ide
    decide
  · have hw := idWidth_le ide
    rw [BitVec.getLsbD_of_ge _ _ (Nat.not_lt.mp hi), decide_eq_false (by omega)]

/-- The bits a mask compares, in either polarity (42 R103). -/
theorem getLsbD_comparedMask (one : Bool) (m : BitVec 29) {i : Nat} (hi : i < 29) :
    (if one then m else ~~~m).getLsbD i = true ↔ m.getLsbD i = one := by
  cases one <;> simp [hi]

/-- The kinds of frame a mask type admits (42 R103). -/
def MaskTypeAdmits (mt : MaskType) (ide : Bool) : Prop :=
  mt = .both ∨ mt = .stdOnly ∧ ide = false ∨ mt = .extOnly ∧ ide = true

theorem State.filterMatch_iff (s : State) (flt : Sys2Proof.Filter) (fr : TxFrame) : s.filterMatch flt fr = true ↔
    MaskTypeAdmits flt.maskType fr.ide
      ∧ ∀ i, i < idWidth fr.ide → flt.mask.getLsbD i = s.params.maskOneCompares →
        fr.id.getLsbD i = flt.id.getLsbD i := by
  rw [State.filterMatch, Bool.and_eq_true, beq_iff_eq, BitVec.and_assoc, xor_and_eq_zero_iff]
  refine and_congr ?_ (forall_congr' fun i => ?_)
  · unfold MaskTypeAdmits
    cases flt.maskType <;> simp
  · rw [BitVec.getLsbD_and, Bool.and_eq_true, getLsbD_widthMask, decide_eq_true_eq]
    have hw := idWidth_le fr.ide
    constructor
    · intro h hi hm
      exact h (by omega) ⟨(getLsbD_comparedMask _ _ (by omega)).mpr hm, hi⟩
    · rintro h hi ⟨hm, hlt⟩
      exact h hlt ((getLsbD_comparedMask _ _ hi).mp hm)

end Sys2Proof.Machine
end

section
/-! SUPPORT. The flags after the operations the events share: the end of an attempt can set TX_ABORTED only
(spec/41_transmit.md R91), the error update ERR_WARNING beside it (spec/43_error.md R114, R116). -/

namespace Sys2Proof.Machine

open Sys2Proof.Config

theorem State.flags_failAttempt_of_ne {i : Nat} (h : i ≠ 2) (s : State) (k : Nat) (c : FailCause) (d : AbortDraw) :
    (s.failAttempt k c d).flags.getLsbD i = s.flags.getLsbD i := by
  rw [State.flags_failAttempt]
  split
  · rw [BitVec.getLsbD_or, Flag.mask_getLsbD, Flag.bit, decide_eq_false h, Bool.or_false]
  · rfl

theorem State.flags_endAttempt_of_ne {i : Nat} (h : i ≠ 2) (s : State) (c : FailCause) (d : AbortDraw) :
    (s.endAttempt c d).flags.getLsbD i = s.flags.getLsbD i := by
  unfold State.endAttempt
  split
  · exact State.flags_failAttempt_of_ne h s _ c d
  · rfl

theorem State.flags_enterBusOff_of_ne {i : Nat} (h : i ≠ 2) (s : State) (d : AbortDraw) :
    (s.enterBusOff d).flags.getLsbD i = s.flags.getLsbD i :=
  State.flags_endAttempt_of_ne h { s with busOff := true } .busOff d

theorem State.flags_errCounted_of_ne {i : Nat} (h : i ≠ 9) (s : State) (ev : EvKind) :
    (s.errCounted ev).flags.getLsbD i = s.flags.getLsbD i := by
  rw [State.errCounted, State.flags_setFlagIf, Flag.bit, decide_eq_false h, Bool.and_false, Bool.or_false,
    State.countError_flags]

theorem State.flags_errUpdate_of_ne {i : Nat} (h2 : i ≠ 2) (h9 : i ≠ 9) (s : State) (ev : EvKind) (d : AbortDraw) :
    (s.errUpdate ev d).flags.getLsbD i = s.flags.getLsbD i := by
  rw [State.errUpdate_eq]
  split
  · rw [State.flags_enterBusOff_of_ne h2, State.flags_errCounted_of_ne h9]
  · exact State.flags_errCounted_of_ne h9 s ev

end Sys2Proof.Machine
end

section
/-! SUPPORT. The arrival of a frame (spec/42_receive.md R110): the FIFO and the RX flags where there is room and where
there is none, then the restart of the timer by a reference message (spec/44_ttc.md R132, R133). -/

namespace Sys2Proof.Machine

theorem State.storeFrame_frame (s : State) (e : RxFrame) :
    s.storeFrame e = { s with rx := (s.storeFrame e).rx, flags := (s.storeFrame e).flags } := by
  apply State.ext <;> simp

theorem State.storeFrame_of_room {s : State} (h : s.rx.length < 8) (e : RxFrame) :
    (s.storeFrame e).rx = s.rx ++ [e] ∧ ∀ i, (s.storeFrame e).flags.getLsbD i =
      (s.flags.getLsbD i || decide (i = 3) || decide (s.rx.length + 1 = s.afwl.toNat) && decide (i = 5)) := by
  obtain ⟨-, hr, hf⟩ | ⟨hl, -⟩ | ⟨hl, -⟩ := s.storeFrame_cases e
  · exact ⟨hr, hf⟩
  · omega
  · omega

theorem State.storeFrame_of_discardNew {s : State} (h : 8 ≤ s.rx.length) (hp : s.rxPolicy = .discardNew)
    (e : RxFrame) : (s.storeFrame e).rx = s.rx
      ∧ ∀ i, (s.storeFrame e).flags.getLsbD i = (s.flags.getLsbD i || decide (i = 4)) := by
  obtain ⟨hl, -⟩ | ⟨-, -, hr, hf⟩ | ⟨-, hp', -⟩ := s.storeFrame_cases e
  · omega
  · exact ⟨hr, hf⟩
  · rw [hp] at hp'; cases hp'

theorem State.storeFrame_of_saveNew {s : State} (h : 8 ≤ s.rx.length) (hp : s.rxPolicy = .saveNew) (e : RxFrame) :
    (s.storeFrame e).rx = s.rx.tail ++ [e]
      ∧ ∀ i, (s.storeFrame e).flags.getLsbD i = (s.flags.getLsbD i || decide (i = 4) || decide (i = 3)) := by
  obtain ⟨hl, -⟩ | ⟨-, hp', -⟩ | ⟨-, -, hr, hf⟩ := s.storeFrame_cases e
  · omega
  · rw [hp] at hp'; cases hp'
  · exact ⟨hr, hf⟩

/-- A frame touches no flag but RX_RECEIVED, RX_OVERFLOW and RX_ALMOST_FULL. -/
theorem State.flags_storeFrame_of_ne {i : Nat} (h3 : i ≠ 3) (h4 : i ≠ 4) (h5 : i ≠ 5) (s : State) (e : RxFrame) :
    (s.storeFrame e).flags.getLsbD i = s.flags.getLsbD i := by
  obtain ⟨-, -, hf⟩ | ⟨-, -, -, hf⟩ | ⟨-, -, -, hf⟩ := s.storeFrame_cases e <;> simp [hf, h3, h4, h5]

/-- The block after an arrival, before a reference message restarts the timer (42 R110). -/
def State.received (s : State) (fr : TxFrame) (et : ErrorType) (d : AbortDraw) : State :=
  if s.accepted fr then (s.errUpdate .rxOk d).storeFrame (s.rxEntry fr et) else s.errUpdate .rxOk d

section
variable (s : State) (fr : TxFrame) (et : ErrorType) (d : AbortDraw)

theorem evRxFrame_eq : evRxFrame fr et d s =
    if s.isReference fr then (s.received fr et d).ttcRefReceived else s.received fr et d := rfl

theorem rx_evRxFrame : (evRxFrame fr et d s).rx = (s.received fr et d).rx := by
  rw [evRxFrame_eq]; split <;> rfl

theorem flags_evRxFrame : (evRxFrame fr et d s).flags = (s.received fr et d).flags := by
  rw [evRxFrame_eq]; split <;> rfl

/-- Beside the error update an arrival writes the FIFO and the flags only. -/
theorem State.received_frame : s.received fr et d =
    { s.errUpdate .rxOk d with rx := (s.received fr et d).rx, flags := (s.received fr et d).flags } := by
  unfold State.received
  split
  · exact State.storeFrame_frame _ _
  · rfl

theorem evRxFrame_frame : evRxFrame fr et d s =
    { s.errUpdate .rxOk d with
      rx := (evRxFrame fr et d s).rx, flags := (evRxFrame fr et d s).flags, timer := (evRxFrame fr et d s).timer,
      prescCnt := (evRxFrame fr et d s).prescCnt } := by
  rw [evRxFrame_eq]
  split
  · exact congrArg State.ttcRefReceived (s.received_frame fr et d)
  · rw [s.received_frame fr et d]

theorem timer_evRxFrame : (evRxFrame fr et d s).timer = if s.isReference fr then 0 else s.timer := by
  rw [evRxFrame_eq]
  split
  · rfl
  · rw [s.received_frame fr et d]
    exact s.errUpdate_timer .rxOk d

theorem prescCnt_evRxFrame : (evRxFrame fr et d s).prescCnt = if s.isReference fr then 0 else s.prescCnt := by
  rw [evRxFrame_eq]
  split
  · rfl
  · rw [s.received_frame fr et d]
    exact s.errUpdate_prescCnt .rxOk d

theorem State.flags_received_of_ne {i : Nat} (h3 : i ≠ 3) (h4 : i ≠ 4) (h5 : i ≠ 5) :
    (s.received fr et d).flags.getLsbD i = (s.errUpdate .rxOk d).flags.getLsbD i := by
  unfold State.received
  split
  · exact State.flags_storeFrame_of_ne h3 h4 h5 _ _
  · rfl

/-- A reference message of this block (42 R110 `isRef`, 44 R132). -/
theorem State.isReference_iff : s.isReference fr = true ↔
    s.ttcEn = true ∧ fr.id = s.ttcCfg.refId ∧ fr.ide = s.ttcCfg.refIde
      ∧ (s.accepted fr = true ∨ s.params.refNeedsAccept = false) := by
  simp only [State.isReference, Bool.and_eq_true, Bool.or_eq_true, beq_iff_eq, Bool.not_eq_true', and_assoc]

variable {s fr}

theorem State.received_of_accepted (h : s.accepted fr = true) :
    s.received fr et d = (s.errUpdate .rxOk d).storeFrame (s.rxEntry fr et) := if_pos h

theorem State.received_of_not_accepted (h : s.accepted fr = false) :
    s.received fr et d = s.errUpdate .rxOk d := if_neg (by simp [h])

theorem State.received_of_room (ha : s.accepted fr = true) (hl : s.rx.length < 8) :
    (s.received fr et d).rx = s.rx ++ [s.rxEntry fr et] ∧ (s.received fr et d).flags.getLsbD 3 = true
      ∧ (s.received fr et d).flags.getLsbD 4 = s.flags.getLsbD 4
      ∧ (s.received fr et d).flags.getLsbD 5
        = (s.flags.getLsbD 5 || decide (s.rx.length + 1 = s.afwl.toNat)) := by
  have hroom : (s.errUpdate .rxOk d).rx.length < 8 := by rwa [State.errUpdate_rx]
  obtain ⟨hr, hf⟩ := State.storeFrame_of_room hroom (s.rxEntry fr et)
  rw [State.received_of_accepted et d ha]
  simp (decide := true) only [hr, hf, State.errUpdate_rx, State.errUpdate_afwl, State.flags_errUpdate_of_ne,
    decide_true, decide_false, Bool.or_true, Bool.or_false, Bool.and_true, Bool.and_false, and_self]

/-- At a full FIFO RX_OVERFLOW is set, and the policy decides about the frame. -/
theorem State.received_of_full (ha : s.accepted fr = true) (hl : 8 ≤ s.rx.length) :
    (s.received fr et d).flags.getLsbD 4 = true
      ∧ (s.received fr et d).flags.getLsbD 5 = s.flags.getLsbD 5
      ∧ (s.rxPolicy = .discardNew → (s.received fr et d).rx = s.rx
        ∧ (s.received fr et d).flags.getLsbD 3 = s.flags.getLsbD 3)
      ∧ (s.rxPolicy = .saveNew → (s.received fr et d).rx = s.rx.tail ++ [s.rxEntry fr et]
        ∧ (s.received fr et d).flags.getLsbD 3 = true) := by
  have hfull : 8 ≤ (s.errUpdate .rxOk d).rx.length := by rwa [State.errUpdate_rx]
  rw [State.received_of_accepted et d ha]
  cases hp : s.rxPolicy with
  | discardNew =>
    obtain ⟨hr, hf⟩ := State.storeFrame_of_discardNew hfull ((s.errUpdate_rxPolicy _ d).trans hp) (s.rxEntry fr et)
    simp (decide := true) only [hr, hf, State.errUpdate_rx, State.flags_errUpdate_of_ne, decide_true, decide_false,
      Bool.or_true, Bool.or_false, and_self, true_imp_iff, false_imp_iff]
  | saveNew =>
    obtain ⟨hr, hf⟩ := State.storeFrame_of_saveNew hfull ((s.errUpdate_rxPolicy _ d).trans hp) (s.rxEntry fr et)
    simp (decide := true) only [hr, hf, State.errUpdate_rx, State.flags_errUpdate_of_ne, decide_true, decide_false,
      Bool.or_true, Bool.or_false, and_self, true_imp_iff, false_imp_iff]

end

end Sys2Proof.Machine
end

section
/-! SUPPORT. What an input can do to RX_OVERFLOW (spec/42_receive.md R108, R110, R112; spec/45_status.md R138). -/

namespace Sys2Proof.Machine

open Sys2Proof.Config

theorem State.overflow_of_guarded {s t : State} (h : t.guarded = s.guarded) :
    t.flag .rxOverflow = s.flag .rxOverflow := congrArg Guarded.overflow h

theorem State.overflow_setFlag {g : Flag} (hg : Flag.rxOverflow.bit ≠ g.bit) (s : State) :
    (s.setFlag g).flag .rxOverflow = s.flag .rxOverflow := State.overflow_of_guarded (State.guarded_setFlag hg s)

theorem State.overflow_endAttempt (s : State) (c : FailCause) (d : AbortDraw) :
    (s.endAttempt c d).flag .rxOverflow = s.flag .rxOverflow :=
  State.flags_endAttempt_of_ne (by decide) s c d

theorem State.overflow_errUpdate (s : State) (ev : EvKind) (d : AbortDraw) :
    (s.errUpdate ev d).flag .rxOverflow = s.flag .rxOverflow :=
  State.flags_errUpdate_of_ne (by decide) (by decide) s ev d

/-- A command that may fail the check `c` leaves RX_OVERFLOW where it does so if it passes. -/
theorem overflow_of_check {s t : State} {c : Prop} [Decidable c] {r : ResultCode}
    (ht : t.flag .rxOverflow = s.flag .rxOverflow) :
    (if c then s.fail r else t).flag .rxOverflow = s.flag .rxOverflow := by
  split
  · rfl
  · exact ht

theorem overflow_load (s : State) (buf : TxBuffer) (f : TxFrame) :
    (s.load buf f).flag .rxOverflow = s.flag .rxOverflow := by
  cases buf <;> rw [State.load] <;> split <;> rfl

/-- A release ends the overflow, unless the FIFO was empty. -/
theorem overflow_exec_rxRelease {s t : State} (h : exec .rxRelease s = .next t) :
    t.flag .rxOverflow = s.flag .rxOverflow ∨ t.flag .rxOverflow = false := by
  cases hr : s.rx with
  | nil =>
    rw [exec_rxRelease_of_nil hr] at h
    cases h
    exact .inl rfl
  | cons e rest =>
    rw [exec_rxRelease_of_cons hr] at h
    cases h
    refine .inr ((State.flags_clearFlag _ .rxOverflow _).trans ?_)
    simp

/-- No command but RX_RELEASE and RESET touches RX_OVERFLOW. -/
theorem overflow_exec {i : Instr} {s t : State} (h : exec i s = .next t) (hr : i ≠ .reset) (hl : i ≠ .rxRelease) :
    t.flag .rxOverflow = s.flag .rxOverflow := by
  cases i with
  | reset => exact absurd rfl hr
  | rxRelease => exact absurd rfl hl
  | cfgLeave | setWorkMode | setTxOptions | btRead | txStatusRead | rxStatusRead | errRead | ttcRead | statusRead
  | intEnable => cases h; rfl
  | filterRead | rxPeek | ttcEnable => cases h; (repeat' split) <;> rfl
  | filterEnable | rxSetConfig | errSetWarnLimit | ttcConfig => cases h; exact overflow_of_check rfl
  | filterWrite | errClearCounters => cases h; exact overflow_of_check (overflow_of_check rfl)
  | btWrite p b => cases h; exact overflow_of_check (overflow_of_check (by cases p <;> rfl))
  | txLoad buf f => cases h; exact overflow_of_check (overflow_of_check (overflow_load s buf f))
  | txEnable sel => cases h; exact overflow_of_check (by cases sel <;> dsimp only <;> split <;> rfl)
  | cfgEnter => cases h; exact s.overflow_endAttempt _ _
  | txAbort p q =>
    rw [exec, execTxAbort_eq] at h
    cases h
    refine (State.overflow_of_guarded (State.guarded_setFlagIf (by decide) _ _)).trans ?_
    simp [State.aborted, State.flag]
  | errForceBusOff =>
    cases h
    refine overflow_of_check ?_
    split
    · rfl
    · exact (State.overflow_endAttempt _ _ _).trans (by simp [State.flag])
  | statusClear mask => cases h; exact State.overflow_of_guarded (s.guarded_clearable mask)

theorem overflow_txCompleted (s : State) (k : Nat) : (s.txCompleted k).flag .rxOverflow = s.flag .rxOverflow := by
  rw [State.flag, State.flags_txCompleted, BitVec.getLsbD_or, Flag.mask_getLsbD]
  split <;> exact Bool.or_false _

/-- An accepted frame at a full FIFO sets RX_OVERFLOW, and the FIFO stays as full as it was. -/
theorem overflow_evRxFrame (fr : TxFrame) (et : ErrorType) (d : AbortDraw) (s : State) :
    (evRxFrame fr et d s).flag .rxOverflow = s.flag .rxOverflow
      ∨ (evRxFrame fr et d s).flag .rxOverflow = true ∧ 8 ≤ s.rx.length
        ∧ (evRxFrame fr et d s).rx.length = s.rx.length := by
  rw [State.flag, flags_evRxFrame, rx_evRxFrame]
  cases ha : s.accepted fr with
  | false =>
    rw [State.received_of_not_accepted et d ha]
    exact .inl (s.overflow_errUpdate .rxOk d)
  | true =>
    by_cases hl : s.rx.length < 8
    · obtain ⟨-, -, h4, -⟩ := State.received_of_room et d ha hl
      exact .inl h4
    · obtain ⟨h4, -, hdiscard, hsave⟩ := State.received_of_full et d ha (Nat.not_lt.mp hl)
      refine .inr ⟨h4, Nat.not_lt.mp hl, ?_⟩
      cases hp : s.rxPolicy with
      | discardNew => rw [(hdiscard hp).1]
      | saveNew =>
        rw [(hsave hp).1, List.length_append, List.length_tail, List.length_singleton]
        omega

/-- No event but an arrival touches RX_OVERFLOW. -/
theorem overflow_eventEffect {e : Event} (he : ∀ fr et d, e ≠ .rxFrame fr et d) (s : State) :
    (eventEffect e s).flag .rxOverflow = s.flag .rxOverflow := by
  cases e with
  | rxFrame fr et d => exact absurd rfl (he fr et d)
  | txStart =>
    rw [eventEffect, evTxStart]
    split
    · rw [State.modifySlot_frame]; rfl
    · rfl
  | txSuccess =>
    rw [eventEffect, evTxSuccess]
    split
    · exact (State.overflow_errUpdate _ _ _).trans (overflow_txCompleted s _)
    · rfl
  | txArbLost pos d =>
    exact (State.overflow_endAttempt _ _ _).trans (State.overflow_setFlag (by decide) { s with alc := pos })
  | txError t d =>
    exact (State.overflow_errUpdate _ _ _).trans ((State.overflow_endAttempt _ _ _).trans
      (State.overflow_setFlag (by decide) { s with lastErrorType := t }))
  | rxError t d =>
    exact (State.overflow_errUpdate _ _ _).trans (State.overflow_setFlag (by decide) { s with lastErrorType := t })
  | busOff d => exact State.overflow_endAttempt { s with busOff := true } .busOff d
  | busOffRecover => rfl
  | clkTick =>
    rw [eventEffect, evClkTick]
    split_ifs
    · rfl
    · exact State.flag_ttcCompare_rxOverflow _
    · rfl

/-- RX_OVERFLOW stays, or a release clears it, or it is set at a full FIFO that stays full. -/
theorem overflow_runInput {i : Input} {s t : State} (h : runInput i s = .next t) (hr : resets i = false) :
    t.flag .rxOverflow = s.flag .rxOverflow ∨ releases i = true ∧ t.flag .rxOverflow = false
      ∨ t.flag .rxOverflow = true ∧ 8 ≤ s.rx.length ∧ t.rx.length = s.rx.length := by
  obtain ⟨_, _, _, -, -, rfl⟩ | ⟨w0, rest, c, rfl, hd, hc⟩ | ⟨e, rfl, -, rfl⟩ | ⟨rfl, -⟩ := runInput_next h
  · exact .inl rfl
  · have hne : c ≠ .reset := by
      rintro rfl
      simp [resets, hd, Except.toOption] at hr
    by_cases hl : c = .rxRelease
    · subst hl
      have hrel : releases (.command w0 rest) = true := by simp [releases, hd, Except.toOption]
      exact (overflow_exec_rxRelease hc).imp_right fun hf => .inl ⟨hrel, hf⟩
    · exact .inl (overflow_exec hc hne hl)
  · by_cases he : ∃ fr et d, e = .rxFrame fr et d
    · obtain ⟨fr, et, d, rfl⟩ := he
      exact (overflow_evRxFrame fr et d s).imp_right .inr
    · exact .inl (overflow_eventEffect (fun fr et d h => he ⟨fr, et, d, h⟩) s)
  · cases hr

end Sys2Proof.Machine
end

section
/-! SUPPORT. The entry into bus-off (spec/43_error.md R116, R117), with and without an attempt in progress. -/

namespace Sys2Proof.Machine

theorem State.enterBusOff_of_idle {s : State} (h : ∀ k, (s.slot k).st ≠ .transmitting) (d : AbortDraw) :
    s.enterBusOff d = { s with busOff := true } := by
  have hslot : ({ s with busOff := true } : State).slot = s.slot := State.slot_congr rfl rfl
  exact State.endAttempt_of_idle (fun k => hslot ▸ h k) .busOff d

theorem State.enterBusOff_of_transmitting {s : State} {k : Nat} (h1 : s.inv1 = true)
    (hk : (s.slot k).st = .transmitting) (d : AbortDraw) :
    s.enterBusOff d = { s with busOff := true }.failAttempt k .busOff d :=
  State.endAttempt_of_sameSlots (s := s) (u := { s with busOff := true }) rfl rfl h1 hk .busOff d

theorem runEvent_busOff {s : State} (hm : s.mode = .normal) (hb : s.busOff = false) (d : AbortDraw) :
    runEvent (.busOff d) s = .next (s.enterBusOff d) :=
  (runEvent_of_iff (e := .busOff d) (canBusOff_iff s)).1 ⟨hm, hb⟩

end Sys2Proof.Machine
end

section
/-! The statements of spec/42_receive.md settled, with those of spec/43_error.md in the same family. -/

namespace Sys2Proof.Machine

/-- Settles O19: the flag stays but for a release, which clears it, and an arrival at a full FIFO, which sets it. -/
theorem overflowFlagNeedsARelease : Obligations.OverflowFlagNeedsARelease := by
  intro i s t h hr
  obtain hsame | ⟨hrel, hclear⟩ | ⟨hset, hfull, hlen⟩ := overflow_runInput h hr
  · exact ⟨fun hs _ => hsame.trans hs, fun _ hs ht => absurd (hs.symm.trans (hsame.symm.trans ht)) (by decide)⟩
  · exact ⟨fun _ hno => absurd (hno.symm.trans hrel) (by decide),
      fun _ _ ht => absurd (hclear.symm.trans ht) (by decide)⟩
  · exact ⟨fun _ _ => hset, fun hle _ _ => ⟨by omega, by omega⟩⟩

/-- Settles O40: the answer's words hold the oldest frame's fields and its data, byte by byte. -/
theorem receivePeekAnswersTheOldestFrame : Obligations.ReceivePeekAnswersTheOldestFrame := by
  intro s
  refine ⟨exec_rxPeek_of_nil, fun e rest he => ?_⟩
  obtain ⟨hid, hide, hrtr, h31, -⟩ := e.frame.reads_d1
  obtain ⟨hdlc, hfdf, hbrs, het, h9, hct⟩ := rxD2_reads e
  refine ⟨e.frame.d1, rxD2 e, packData e.frame.data, exec_rxPeek_of_cons he, hid, hide, hrtr, h31, hdlc, hfdf, hbrs,
    het.trans ?_, h9, hct, packData_length _, fun k hk => ?_⟩
  · cases e.errorType <;> rfl
  · exact dataByte_packData _ _ (packData_length e.frame.data ▸ hk)

/-- Settles O42: the word's fields, the status code by the four cases of 42 R105. -/
theorem receiveStatusWordHasItsFields : Obligations.ReceiveStatusWordHasItsFields := by
  intro s hs
  obtain ⟨hfill, hcode, hlim, hpol, hov, hzero⟩ := s.rxStatusWord_reads
  obtain ⟨hempty, hfull, hbelow, habove⟩ := State.rxStateCode_iff hs
  rw [← hcode] at hempty hfull hbelow habove
  refine ⟨s.rxStatusWord, rfl, hfill.trans (Nat.mod_eq_of_lt (by omega)), hempty, hfull, hbelow, habove, hlim, ?_,
    hov, hzero⟩
  rw [hpol]
  cases s.rxPolicy <;> decide

/-- Settles O43: a frame is accepted by an enabled filter that matches it, and a match is told bit by bit. -/
theorem acceptanceComparesTheMaskedBits : Obligations.AcceptanceComparesTheMaskedBits := by
  intro s fr
  simp only [State.accepted, List.any_eq_true, Bool.and_eq_true, State.filterMatch_iff]
  rfl

/-- Settles O44: the reception is counted, then the frame meets the filters and the FIFO, then the timer restarts. -/
theorem receptionStoresAcceptedFrames : Obligations.ReceptionStoresAcceptedFrames := by
  intro s fr et d hm hb hw hl u e isRef
  have href : s.isReference fr = true ↔ isRef := s.isReference_iff fr
  have hrun := (runEvent_of_iff (e := .rxFrame fr et d) (canRxFrame_iff fr s)).1 ⟨hm, hb, hw, hl⟩
  refine ⟨evRxFrame fr et d s, hrun, evRxFrame_frame s fr et d, ?_⟩
  rw [flags_evRxFrame, rx_evRxFrame, timer_evRxFrame, prescCnt_evRxFrame]
  refine ⟨fun i => s.flags_received_of_ne fr et d, fun ha => ?_, State.received_of_room et d,
    fun ha h8 => State.received_of_full et d ha h8.ge, fun h => ?_, fun h => ?_⟩
  · rw [State.received_of_not_accepted et d ha]
    exact ⟨s.errUpdate_rx .rxOk d, rfl⟩
  · rw [if_pos (href.mpr h), if_pos (href.mpr h)]
    exact ⟨rfl, rfl⟩
  · rw [if_neg (mt href.mp h), if_neg (mt href.mp h)]
    exact ⟨rfl, rfl⟩

/-- Settles O39: the limits the two checks let pass are those of the statement. -/
theorem limitCommandsCheckTheirRange : Obligations.LimitCommandsCheckTheirRange := by
  intro a p l s
  refine ⟨fun h1 h8 => ?_, fun h => ?_, fun h => ?_, fun h => ?_⟩
  · exact execRxSetConfig_of_legal ((afwlLegal_iff a).mpr ⟨h1, h8⟩) p s
  · refine execRxSetConfig_of_illegal ?_ p s
    rw [← Bool.not_eq_true, afwlLegal_iff]
    omega
  · exact execErrSetWarnLimit_of_pos (by bv_omega) s
  · subst h
    exact execErrSetWarnLimit_zero s

/-- Settles O41: a release takes the head of the FIFO and masks out RX_OVERFLOW. -/
theorem receiveReleaseRemovesTheOldestFrame : Obligations.ReceiveReleaseRemovesTheOldestFrame := by
  intro s
  refine ⟨exec_rxRelease_of_nil, fun e rest he => ⟨_, exec_rxRelease_of_cons he, rfl, fun i => ?_⟩⟩
  exact State.flags_clearFlag _ .rxOverflow i

/-- Settles O50: each event's precondition is that of the statement, and bus-off ends the attempt there is. -/
theorem errorEventsWriteTheErrorState : Obligations.ErrorEventsWriteTheErrorState := by
  intro s d
  refine ⟨fun t ht hm hb => ?_, fun hm hb hidle => ?_, fun k hm hb h1 hk => ?_, fun hb => ?_⟩
  · exact (runEvent_of_iff (e := .rxError t d) (canRxError_iff t s)).1 ⟨hm, hb, ht⟩
  · rw [runEvent_busOff hm hb, State.enterBusOff_of_idle hidle]
  · rw [runEvent_busOff hm hb, State.enterBusOff_of_transmitting h1 hk]
  · exact if_pos hb

end Sys2Proof.Machine
end

section
/-! SUPPORT. What a command can do to the error counters (spec/43_error.md R121 to R123). -/

namespace Sys2Proof.Machine

/-- The two error counters (10 R42). -/
def State.counters (s : State) : BitVec 8 × BitVec 8 := (s.recCount, s.tecCount)

/-- A command that may fail the check `c` leaves the counters where it does so if it passes. -/
theorem counters_of_check {s t : State} {c : Prop} [Decidable c] {r : ResultCode} (ht : t.counters = s.counters) :
    (if c then s.fail r else t).counters = s.counters := by
  split
  · rfl
  · exact ht

theorem counters_load (s : State) (buf : TxBuffer) (f : TxFrame) : (s.load buf f).counters = s.counters := by
  cases buf <;> rw [State.load] <;> split <;> rfl

/-- ERR_CLEAR_COUNTERS passes both its checks in the test work mode and in bus-off. -/
theorem execErrClearCounters_of_test {s : State} (hw : s.workMode = .test) (hb : s.busOff = true) :
    execErrClearCounters s = .next ({ s with recCount := 0, tecCount := 0 }.respond .ok []) := by
  simp [execErrClearCounters, hw, hb]

theorem execErrClearCounters_of_failedCheck {s : State} (h : s.workMode = .normal ∨ s.busOff = false) :
    execErrClearCounters s = .next (s.fail .configError) := by
  obtain h | h := h <;> simp [execErrClearCounters, h]

/-- ERR_CLEAR_COUNTERS clears both counters where both its checks pass, and touches neither otherwise. -/
theorem counters_execErrClearCounters {s t : State} (h : execErrClearCounters s = .next t) :
    t.counters = s.counters ∨ s.workMode = .test ∧ s.busOff = true ∧ t.recCount = 0 ∧ t.tecCount = 0 := by
  cases hw : s.workMode with
  | normal =>
    cases h.symm.trans (execErrClearCounters_of_failedCheck (.inl hw))
    exact .inl rfl
  | test =>
    cases hb : s.busOff with
    | false =>
      cases h.symm.trans (execErrClearCounters_of_failedCheck (.inr hb))
      exact .inl rfl
    | true =>
      cases h.symm.trans (execErrClearCounters_of_test hw hb)
      exact .inr ⟨rfl, rfl, rfl, rfl⟩

/-- No command but RESET and ERR_CLEAR_COUNTERS touches a counter. -/
theorem counters_exec {i : Instr} {s t : State} (h : exec i s = .next t) (hr : i ≠ .reset)
    (hc : i ≠ .errClearCounters) : t.counters = s.counters := by
  cases i with
  | reset => exact absurd rfl hr
  | errClearCounters => exact absurd rfl hc
  | cfgLeave | setWorkMode | setTxOptions | btRead | txStatusRead | rxStatusRead | errRead | ttcRead | statusRead
  | statusClear | intEnable => cases h; rfl
  | filterRead | rxPeek | rxRelease | ttcEnable => cases h; (repeat' split) <;> rfl
  | filterEnable | rxSetConfig | errSetWarnLimit | ttcConfig => cases h; exact counters_of_check rfl
  | filterWrite => cases h; exact counters_of_check (counters_of_check rfl)
  | btWrite p b => cases h; exact counters_of_check (counters_of_check (by cases p <;> rfl))
  | txLoad buf f => cases h; exact counters_of_check (counters_of_check (counters_load s buf f))
  | txEnable sel => cases h; exact counters_of_check (by cases sel <;> dsimp only <;> split <;> rfl)
  | cfgEnter => cases h; simp [State.counters]
  | errForceBusOff =>
    cases h
    refine counters_of_check ?_
    split
    · rfl
    · simp [State.counters]
  | txAbort p q =>
    rw [exec, execTxAbort_eq] at h
    cases h
    simp [State.counters, State.aborted]

end Sys2Proof.Machine
end

section
/-! SUPPORT. The error update (spec/43_error.md R113, R114): the counted state, and when it enters bus-off. -/

namespace Sys2Proof.Machine

open Sys2Proof.Config

theorem State.tecForcesBusOff_iff (s : State) : s.tecForcesBusOff = true ↔
    ∃ b, s.params.busOffTec = some b ∧ b ≤ s.tecCount.toNat ∧ s.busOff = false := by
  unfold State.tecForcesBusOff
  cases s.params.busOffTec <;> simp

section

variable (s : State) (ev : EvKind) (d : AbortDraw)

@[simp] theorem State.errUpdate_recCount :
    (s.errUpdate ev d).recCount = clampCount s.recCount (errDeltaOf s.params.errDelta ev).dRec := by
  rw [State.errUpdate_eq]
  split <;> simp [State.errCounted]

@[simp] theorem State.errUpdate_tecCount :
    (s.errUpdate ev d).tecCount = clampCount s.tecCount (errDeltaOf s.params.errDelta ev).dTec := by
  rw [State.errUpdate_eq]
  split <;> simp [State.errCounted]

theorem State.worstCount_errUpdate : (s.errUpdate ev d).worstCount = (s.countError ev).worstCount := by
  simp [State.worstCount]

/-- Counting writes the counters and the flags only. -/
theorem State.errCounted_frame : s.errCounted ev =
    { s with
      recCount := (s.errCounted ev).recCount, tecCount := (s.errCounted ev).tecCount,
      flags := (s.errCounted ev).flags } := by
  apply State.ext <;> simp [State.errCounted]

/-- The counted state in full: bus-off leaves counters and ERR_WARNING as counted, so both can be read afterwards. -/
theorem State.errCounted_eq : s.errCounted ev =
    { s with
      recCount := (s.errUpdate ev d).recCount, tecCount := (s.errUpdate ev d).tecCount,
      flags := s.flags ||| if s.worstCount < s.ewl.toNat ∧ s.ewl.toNat ≤ (s.errUpdate ev d).worstCount then 0x0200
        else 0 } := by
  rw [State.errUpdate_recCount, State.errUpdate_tecCount, State.worstCount_errUpdate, State.errCounted,
    ← Bool.decide_and]
  split_ifs with h
  · rw [decide_eq_true h]; rfl
  · rw [decide_eq_false h, show s.flags ||| 0 = s.flags from BitVec.or_zero]; rfl

theorem State.flags_errCounted_errWarning : (s.errCounted ev).flags.getLsbD 9 = true ↔
    s.flags.getLsbD 9 = true ∨ s.worstCount < s.ewl.toNat ∧ s.ewl.toNat ≤ (s.errUpdate ev d).worstCount := by
  rw [State.errCounted, State.flags_setFlagIf, State.worstCount_errUpdate, State.countError_flags]
  simp [Flag.bit]

/-- Bus-off is reached exactly where BUSOFF_TEC is set, met by the counter after the update, and not yet entered. -/
theorem State.errCounted_tecForcesBusOff_iff : (s.errCounted ev).tecForcesBusOff = true ↔
    ∃ b, s.params.busOffTec = some b ∧ b ≤ (s.errUpdate ev d).tecCount.toNat ∧ s.busOff = false := by
  rw [State.tecForcesBusOff_iff, s.errCounted_eq ev d]

/-- Bus-off leaves ERR_WARNING as counted. -/
theorem State.flags_errUpdate_errWarning : (s.errUpdate ev d).flags.getLsbD 9 = (s.errCounted ev).flags.getLsbD 9 := by
  rw [State.errUpdate_eq]
  split
  · exact State.flags_enterBusOff_of_ne (by decide) _ d
  · rfl

end

end Sys2Proof.Machine
end

section
/-! SUPPORT. The words of ERR_READ (spec/43_error.md R120). -/

namespace Sys2Proof.Machine

theorem State.errorPassive_iff (s : State) : s.errorPassive = true ↔
    s.params.epTh ≤ s.recCount.toNat ∨ s.params.epTh ≤ s.tecCount.toNat := by
  simp [State.errorPassive]

theorem State.errorWord_toNat (s : State) : s.errorWord.toNat =
    s.alc.toNat * 2 ^ 21 + s.lastErrorType.code.toNat * 2 ^ 18 + s.errorPassive.toNat * 2 ^ 17
      + s.busOff.toNat * 2 ^ 16 + s.tecCount.toNat * 2 ^ 8 + s.recCount.toNat := by
  simp only [State.errorWord, append_toNat, bit1_toNat, BitVec.toNat_ofNat]
  omega

/-- Every field of the error word. -/
theorem State.errorWord_reads (s : State) : field s.errorWord 0 8 = s.recCount ∧ field s.errorWord 8 8 = s.tecCount
    ∧ bitAt s.errorWord 16 = s.busOff ∧ bitAt s.errorWord 17 = s.errorPassive
    ∧ field s.errorWord 18 3 = s.lastErrorType.code ∧ field s.errorWord 21 5 = s.alc
    ∧ field s.errorWord 26 6 = 0 := by
  have hw := s.errorWord_toNat
  have hrec := s.recCount.isLt
  have htec := s.tecCount.isLt
  have hoff := s.busOff.toNat_lt
  have hpassive := s.errorPassive.toNat_lt
  have htype := s.lastErrorType.code.isLt
  have halc := s.alc.isLt
  have hzero : s.errorWord.toNat / 2 ^ 26 % 2 ^ 6 = 0 := by omega
  exact ⟨field_eq_of_toNat (by omega), field_eq_of_toNat (by omega), bitAt_eq_of_toNat (by omega),
    bitAt_eq_of_toNat (by omega), field_eq_of_toNat (by omega), field_eq_of_toNat (by omega),
    field_eq_of_toNat hzero⟩

/-- A byte stands in the low byte of a word that is otherwise 0. -/
theorem byteWord_reads (v : BitVec 8) : field (0#24 ++ v) 0 8 = v ∧ field (0#24 ++ v) 8 24 = 0 := by
  have hw : (0#24 ++ v).toNat = v.toNat := by rw [append_toNat]; simp
  have hv := v.isLt
  have hzero : (0#24 ++ v).toNat / 2 ^ 8 % 2 ^ 24 = 0 := by omega
  exact ⟨field_eq_of_toNat (by omega), field_eq_of_toNat hzero⟩

end Sys2Proof.Machine
end

section
/-! SUPPORT. ERR_FORCE_BUSOFF check by check (spec/43_error.md R121), and the draw it counts where it ends an attempt
(log 3). -/

namespace Sys2Proof.Machine

theorem State.countDraw_of_idle {s : State} (h : ∀ k, (s.slot k).st ≠ .transmitting) : s.countDraw = s :=
  if_neg (by simp [s.busy_eq_false_iff.mpr h])

theorem State.countDraw_of_transmitting {s : State} {k : Nat} (hk : (s.slot k).st = .transmitting) :
    s.countDraw = { s with draws := s.draws + 1 } :=
  if_pos (s.busy_iff.mpr ⟨k, hk⟩)

/-- The end of an attempt neither reads nor writes the count of draws. -/
theorem State.failAttempt_withDraws (s : State) (n k : Nat) (c : FailCause) (d : AbortDraw) :
    { s with draws := n }.failAttempt k c d = { s.failAttempt k c d with draws := n } := by
  have hsingle : ({ s with draws := n } : State).singleShot k = s.singleShot k := rfl
  have hhonours : ({ s with draws := n } : State).honours k c d = s.honours k c d := by cases k <;> rfl
  unfold State.failAttempt
  rw [hsingle, hhonours]
  split_ifs <;> apply State.ext <;> simp

/-- Bus-off entered with a draw counted: the attempt ends as without the count. -/
theorem State.enterBusOff_countDraw {s : State} {k : Nat} (h1 : s.inv1 = true) (hk : (s.slot k).st = .transmitting)
    (d : AbortDraw) : s.countDraw.enterBusOff d =
      { { s with busOff := true }.failAttempt k .busOff d with draws := s.draws + 1 } := by
  rw [State.countDraw_of_transmitting hk]
  exact (State.endAttempt_of_sameSlots (u := { s with draws := s.draws + 1, busOff := true }) rfl rfl h1 hk .busOff
    d).trans (State.failAttempt_withDraws { s with busOff := true } (s.draws + 1) k .busOff d)

theorem execErrForceBusOff_of_normal {s : State} (hw : s.workMode = .normal) :
    execErrForceBusOff s = .next (s.fail .configError) := by
  simp [execErrForceBusOff, hw]

theorem execErrForceBusOff_of_busOff {s : State} (hw : s.workMode = .test) (hb : s.busOff = true) :
    execErrForceBusOff s = .next (s.respond .ok []) := by
  simp [execErrForceBusOff, hw, hb]

theorem execErrForceBusOff_of_test {s : State} (hw : s.workMode = .test) (hb : s.busOff = false) :
    execErrForceBusOff s = .next ((s.countDraw.enterBusOff (Config.abortDraw s.draws)).respond .ok []) := by
  simp [execErrForceBusOff, hw, hb]

end Sys2Proof.Machine
end

section
/-! SUPPORT. Bus-off shuts out the events of a transmission and of a reception (spec/43_error.md R116, R123). -/

namespace Sys2Proof.Machine

theorem State.Inv.idle_of_busOff {s : State} (h : s.Inv) (hb : s.busOff = true) (k : Nat) :
    (s.slot k).st ≠ .transmitting := by
  intro hk
  simp [(h.busyNormal k hk).2] at hb

theorem eventCanOccur_of_busOff {s : State} (h : s.Inv) (hb : s.busOff = true) {e : Event} (hr : e ≠ .busOffRecover)
    (ht : e ≠ .clkTick) : eventCanOccur e s = false := by
  have hbusy : s.busy = false := s.busy_eq_false_iff.mpr (h.idle_of_busOff hb)
  have hrx : s.receiving = false := by simp [State.receiving, hb]
  cases e with
  | busOffRecover => exact absurd rfl hr
  | clkTick => exact absurd rfl ht
  | txSuccess | txArbLost => exact hbusy
  | txError => simp [eventCanOccur, canTxError, hbusy]
  | rxFrame => simp [eventCanOccur, canRxFrame, hrx]
  | rxError => simp [eventCanOccur, canRxError, hrx]
  | txStart => simp [eventCanOccur, canTxStart, hb]
  | busOff => simp [eventCanOccur, canBusOff, hb]

end Sys2Proof.Machine
end

section
/-! The statements of spec/43_error.md settled. -/

namespace Sys2Proof.Machine

/-- Settles O46: the counted state differs from the state before by counters and ERR_WARNING, and bus-off, where it is
reached, ends the attempt in progress on that state. -/
theorem countersSaturateAndWarn : Obligations.CountersSaturateAndWarn := by
  intro s ev d t delta m0 m1 off
  have hoff : (s.errCounted ev).tecForcesBusOff = true ↔ off := s.errCounted_tecForcesBusOff_iff ev d
  have hframe := s.errCounted_frame ev
  have habort := State.flags_errCounted_of_ne (i := 2) (by decide) s ev
  have hslot := s.slot_errCounted ev
  have hinv : (s.errCounted ev).inv1 = s.inv1 := by rw [hframe]; rfl
  refine ⟨?_, ?_, ?_, fun i h9 h2 => s.flags_errUpdate_of_ne h2 h9 ev d, fun h => ?_, fun h => ?_⟩
  · rw [State.errUpdate_recCount]; exact clampCount_toNat _ _
  · rw [State.errUpdate_tecCount]; exact clampCount_toNat _ _
  · rw [State.flags_errUpdate_errWarning]; exact s.flags_errCounted_errWarning ev d
  · have ht : t = (s.errCounted ev).enterBusOff d := if_pos (hoff.mpr h)
    refine ⟨?_, fun h1 => ?_, fun hidle => ?_, fun k h1 hk => ?_⟩
    · rw [ht, State.enterBusOff_eq]
    · rw [ht]; exact State.idle_of_enterBusOff (hinv.trans h1) d
    · rw [ht, State.enterBusOff_of_idle (fun k => hslot ▸ hidle k)]
      exact ⟨congrArg (fun u : State => { u with busOff := true }) hframe, habort⟩
    · refine (ht.trans (State.enterBusOff_of_transmitting (hinv.trans h1) (hslot ▸ hk) d)).trans ?_
      exact congrArg (fun u : State => { u with busOff := true }.failAttempt k .busOff d) (s.errCounted_eq ev d)
  · have ht : t = s.errCounted ev := if_neg (mt hoff.mp h)
    rw [ht]
    exact ⟨hframe, habort⟩

/-- Settles O18: no other command touches a counter, and ERR_CLEAR_COUNTERS does so in test mode and bus-off only. -/
theorem commandsNeverWriteTheCountersInProduction : Obligations.CommandsNeverWriteTheCountersInProduction := by
  intro i s t h hr hne
  have hchanged : t.counters ≠ s.counters := fun hc => by
    obtain ⟨hrec, htec⟩ := Prod.mk.inj hc
    exact hne.elim (· hrec) (· htec)
  by_cases hi : i = .errClearCounters
  · subst hi
    exact ⟨rfl, (counters_execErrClearCounters h).resolve_left hchanged⟩
  · exact absurd (counters_exec h hr hi) hchanged

/-- Settles O20: under I2 no slot is Transmitting in bus-off, so no event but the two has its precondition. -/
theorem busOffNodeIsSilent : Obligations.BusOffNodeIsSilent := by
  intro s e hs hb hr ht
  rw [runEvent, eventCanOccur_of_busOff (s.inv_iff.mp hs) hb hr ht]
  rfl

/-- Settles O47: the fields of the two words, read one by one. -/
theorem errorReadWordsHaveTheirFields : Obligations.ErrorReadWordsHaveTheirFields := by
  intro s
  obtain ⟨hrec, htec, hoff, hpassive, htype, halc, hzero⟩ := s.errorWord_reads
  obtain ⟨hewl, hewl0⟩ := byteWord_reads s.ewl
  refine ⟨s.errorWord, 0#24 ++ s.ewl, rfl, hrec, htec, hoff, ?_, ?_, halc, hzero, hewl, hewl0⟩
  · rw [hpassive]; exact s.errorPassive_iff
  · rw [htype]; cases s.lastErrorType <;> rfl

/-- Settles O48: in test mode and outside bus-off the command enters bus-off and counts the draw of an attempt it ends. -/
theorem forceBusOffNeedsTestMode : Obligations.ForceBusOffNeedsTestMode := by
  intro s
  refine ⟨execErrForceBusOff_of_normal, execErrForceBusOff_of_busOff, fun hw hb hidle => ?_, fun k hw hb h1 hk => ?_⟩
  · refine (execErrForceBusOff_of_test hw hb).trans ?_
    rw [State.countDraw_of_idle hidle, State.enterBusOff_of_idle hidle]
    rfl
  · refine (execErrForceBusOff_of_test hw hb).trans ?_
    rw [State.enterBusOff_countDraw h1 hk]
    rfl

/-- Settles O49: each clause is the outcome of the two checks. -/
theorem clearCountersNeedsTestModeAndBusOff : Obligations.ClearCountersNeedsTestModeAndBusOff :=
  fun _ => ⟨execErrClearCounters_of_test, execErrClearCounters_of_failedCheck⟩

end Sys2Proof.Machine
end

section
/-! SUPPORT. The TTC commands check by check, and the word of TTC_READ (spec/44_ttc.md R126 to R128). -/

namespace Sys2Proof.Machine

theorem State.releaseAfterConfig_eq (s : State) (t : TrigType) :
    s.releaseAfterConfig t = (s.released && decide (t = .transmitStop)) := by
  cases t with
  | transmitStop => exact (Bool.and_true _).symm
  | immediate | time | singleShotTransmit | transmitStart => exact (Bool.and_false _).symm

theorem execTtcConfig_of_legal {s : State} {c : TtcConfig} (h : s.ttcLegal c = true) : execTtcConfig c s =
    .next ({ s with ttcCfg := c, released := s.releaseAfterConfig c.trigType }.respond .ok []) := by
  simp [execTtcConfig, h]

theorem execTtcConfig_of_illegal {s : State} {c : TtcConfig} (h : s.ttcLegal c = false) :
    execTtcConfig c s = .next (s.fail .configError) := by
  simp [execTtcConfig, h]

theorem execTtcEnable_of_off {s : State} (h : s.ttcEn = false) : execTtcEnable true s =
    .next ({ s with ttcEn := true, timer := 0, prescCnt := 0, released := false }.respond .ok []) := by
  simp [execTtcEnable, h]

theorem execTtcEnable_of_on {s : State} (h : s.ttcEn = true) :
    execTtcEnable true s = .next (s.respond .ok []) := by
  simp [execTtcEnable, h]

theorem State.ttcWord_toNat (s : State) :
    s.ttcWord.toNat = s.released.toNat * 2 ^ 17 + s.ttcEn.toNat * 2 ^ 16 + s.timer.toNat := by
  simp only [State.ttcWord, append_toNat, bit1_toNat, BitVec.toNat_ofNat]
  omega

/-- Every field of the TTC word. -/
theorem State.ttcWord_reads (s : State) : field s.ttcWord 0 16 = s.timer ∧ bitAt s.ttcWord 16 = s.ttcEn
    ∧ bitAt s.ttcWord 17 = s.released ∧ field s.ttcWord 18 14 = 0 := by
  have hw := s.ttcWord_toNat
  have htimer := s.timer.isLt
  have hen := s.ttcEn.toNat_lt
  have hreleased := s.released.toNat_lt
  have hzero : s.ttcWord.toNat / 2 ^ 18 % 2 ^ 14 = 0 := by omega
  exact ⟨field_eq_of_toNat (by omega), bitAt_eq_of_toNat (by omega), bitAt_eq_of_toNat (by omega),
    field_eq_of_toNat hzero⟩

end Sys2Proof.Machine
end

section
/-! SUPPORT. The clock tick branch by branch (spec/44_ttc.md R129), and what the comparisons of an advance leave alone
(R130, R131). -/

namespace Sys2Proof.Machine

theorem evClkTick_of_off {s : State} (h : s.ttcEn = false) : evClkTick s = s := if_pos h

theorem evClkTick_of_count {s : State} (he : s.ttcEn = true) (hp : s.prescCnt.toNat + 1 < s.ttcCfg.presc.toNat) :
    evClkTick s = { s with prescCnt := s.prescCnt + 1 } := by
  rw [evClkTick, if_neg (by simp [he]), if_neg (by omega)]

/-- The timer after one more unit of the prescaler, before the comparisons (44 R129). -/
def State.advanced (s : State) : State := { s with prescCnt := 0, timer := s.timer + 1 }

theorem evClkTick_of_advance {s : State} (he : s.ttcEn = true) (hp : s.ttcCfg.presc.toNat ≤ s.prescCnt.toNat + 1) :
    evClkTick s = s.advanced.ttcCompare := by
  rw [evClkTick, if_neg (by simp [he]), if_pos hp, State.advanced]

theorem State.timer_advanced (s : State) : s.advanced.timer.toNat = (s.timer.toNat + 1) % 2 ^ 16 :=
  BitVec.toNat_add s.timer 1

/-- The comparisons write the release and the flags only. -/
theorem State.ttcCompare_frame (s : State) :
    s.ttcCompare = { s with released := s.ttcCompare.released, flags := s.ttcCompare.flags } := by
  apply State.ext <;> simp

/-- At the trigger time the trigger type decides about the release (44 R131). -/
theorem State.released_ttcCompare_of_trigger {s : State} (h : s.timer = s.ttcCfg.trigTime) :
    (s.ttcCfg.trigType = .singleShotTransmit ∨ s.ttcCfg.trigType = .transmitStart → s.ttcCompare.released = true)
      ∧ (s.ttcCfg.trigType = .transmitStop → s.ttcCompare.released = false)
      ∧ (s.ttcCfg.trigType = .immediate ∨ s.ttcCfg.trigType = .time → s.ttcCompare.released = s.released) := by
  rw [State.released_ttcCompare, if_pos h]
  cases s.ttcCfg.trigType <;> simp

/-- The end of the window is reached where the timer, which wraps, comes to `trigTime + tew + 1` (44 R130). -/
theorem State.timer_eq_windowEnd_iff (s : State) : s.timer = s.ttcCfg.trigTime + s.ttcCfg.tew + 1 ↔
    s.timer.toNat = (s.ttcCfg.trigTime.toNat + s.ttcCfg.tew.toNat + 1) % 2 ^ 16 := by
  rw [← BitVec.toNat_inj, BitVec.toNat_add, BitVec.toNat_add, Nat.mod_add_mod]
  rfl

/-- Away from the trigger time only the close of a single-shot window ends a release (44 R130). -/
theorem State.released_ttcCompare_of_ne {s : State} (h : s.timer ≠ s.ttcCfg.trigTime) :
    s.ttcCompare.released = (s.released && !decide (s.ttcCfg.trigType = .singleShotTransmit
      ∧ s.timer.toNat = (s.ttcCfg.trigTime.toNat + s.ttcCfg.tew.toNat + 1) % 2 ^ 16)) := by
  simp only [State.released_ttcCompare, if_neg h, State.timer_eq_windowEnd_iff]

theorem State.flag_ttcTrigger_ttcCompare (s : State) : s.ttcCompare.flag .ttcTrigger =
    (s.flag .ttcTrigger || s.timer == s.ttcCfg.trigTime) :=
  (s.flags_ttcCompare 12).trans (by simp [State.flag, Flag.bit])

theorem State.flag_ttcWatchTrigger_ttcCompare (s : State) : s.ttcCompare.flag .ttcWatchTrigger =
    (s.flag .ttcWatchTrigger || s.timer == s.ttcCfg.watchTime) :=
  (s.flags_ttcCompare 13).trans (by simp [State.flag, Flag.bit])

end Sys2Proof.Machine
end

section
/-! SUPPORT. What leaves the TTC timer alone and sets no TTC flag: every command but TTC_CONFIG, TTC_ENABLE and RESET,
and every event but a tick and a reference message (spec/44_ttc.md R129, R130, R132). -/

namespace Sys2Proof.Machine

open Sys2Proof.Config

/-- The enable, the configuration, the timer and the prescaler counter (10 R32, R43). -/
structure TtcClock where
  en : Bool
  cfg : TtcConfig
  timer : BitVec 16
  prescCnt : BitVec 16

/-- The clock of a state's TTC scheduler. -/
def State.ttcClock (s : State) : TtcClock := ⟨s.ttcEn, s.ttcCfg, s.timer, s.prescCnt⟩

/-- `t` has the TTC clock of `s`, and of the flags from bit 12 on, the TTC flags (45 R135), none that `s` has not. -/
structure TtcKept (s t : State) : Prop where
  clock : t.ttcClock = s.ttcClock
  flags : ∀ i, 12 ≤ i → t.flags.getLsbD i = true → s.flags.getLsbD i = true

theorem TtcKept.of_flags_eq {s t : State} (hc : t.ttcClock = s.ttcClock)
    (hf : ∀ i, 12 ≤ i → t.flags.getLsbD i = s.flags.getLsbD i) : TtcKept s t :=
  ⟨hc, fun i hi h => hf i hi ▸ h⟩

/-- An update of other fields, seen by computation. -/
theorem TtcKept.of_eq {s t : State} (hc : t.ttcClock = s.ttcClock) (hf : t.flags = s.flags) : TtcKept s t :=
  .of_flags_eq hc fun _ _ => by rw [hf]

theorem TtcKept.refl (s : State) : TtcKept s s := .of_eq rfl rfl

theorem TtcKept.trans {s t u : State} (h : TtcKept s t) (h' : TtcKept t u) : TtcKept s u :=
  ⟨h'.clock.trans h.clock, fun i hi hf => h.flags i hi (h'.flags i hi hf)⟩

/-- A command that may fail the check `c` keeps the TTC clock where it does so if it passes. -/
theorem TtcKept.of_check {s t : State} {c : Prop} [Decidable c] {r : ResultCode} (h : TtcKept s t) :
    TtcKept s (if c then s.fail r else t) := by
  split
  · exact .of_eq rfl rfl
  · exact h

theorem ttcKept_setFlagIf {g : Flag} (hg : g.bit < 12) (s : State) (c : Bool) : TtcKept s (s.setFlagIf c g) :=
  .of_flags_eq (by simp [State.ttcClock]) fun i hi => by
    rw [State.flags_setFlagIf, decide_eq_false (by omega), Bool.and_false, Bool.or_false]

theorem ttcKept_setFlag {g : Flag} (hg : g.bit < 12) (s : State) : TtcKept s (s.setFlag g) :=
  ttcKept_setFlagIf hg s true

/-- Flags can be cleared. -/
theorem ttcKept_clear (s : State) (mask : BitVec 14) : TtcKept s { s with flags := s.flags &&& mask } where
  clock := rfl
  flags i _ h := by
    rw [BitVec.getLsbD_and, Bool.and_eq_true] at h
    exact h.1

theorem ttcKept_endAttempt (s : State) (c : FailCause) (d : AbortDraw) : TtcKept s (s.endAttempt c d) :=
  .of_flags_eq (by simp [State.ttcClock]) fun i hi => State.flags_endAttempt_of_ne (by omega) s c d

theorem ttcKept_errUpdate (s : State) (ev : EvKind) (d : AbortDraw) : TtcKept s (s.errUpdate ev d) :=
  .of_flags_eq (by simp [State.ttcClock]) fun i hi => State.flags_errUpdate_of_ne (by omega) (by omega) s ev d

theorem ttcKept_txCompleted (s : State) (k : Nat) : TtcKept s (s.txCompleted k) :=
  .of_flags_eq (by simp [State.ttcClock]) fun i hi => by
    have hg : (if k = 0 then Flag.txPtbDone else Flag.txStbDone).bit < 12 := by split <;> decide
    rw [State.flags_txCompleted, BitVec.getLsbD_or, Flag.mask_getLsbD, decide_eq_false (by omega), Bool.or_false]

theorem ttcKept_load (s : State) (buf : TxBuffer) (f : TxFrame) : TtcKept s (s.load buf f) := by
  cases buf <;> rw [State.load] <;> split <;> exact .of_eq rfl rfl

theorem ttcKept_exec {i : Instr} {s t : State} (h : exec i s = .next t) (hc : i.opcode ≠ .ttcConfig)
    (he : i.opcode ≠ .ttcEnable) (hr : i.opcode ≠ .reset) : TtcKept s t := by
  cases i with
  | ttcConfig => exact absurd rfl hc
  | ttcEnable => exact absurd rfl he
  | reset => exact absurd rfl hr
  | cfgLeave | setWorkMode | setTxOptions | btRead | txStatusRead | rxStatusRead | errRead | ttcRead | statusRead
  | intEnable => cases h; exact .of_eq rfl rfl
  | filterRead | rxPeek => cases h; (repeat' split) <;> exact .of_eq rfl rfl
  | filterEnable | rxSetConfig | errSetWarnLimit => cases h; exact .of_check (.of_eq rfl rfl)
  | filterWrite | errClearCounters => cases h; exact .of_check (.of_check (.of_eq rfl rfl))
  | btWrite p b => cases h; exact .of_check (.of_check (by cases p <;> exact .of_eq rfl rfl))
  | txLoad buf f => cases h; exact .of_check (.of_check (ttcKept_load s buf f))
  | txEnable sel => cases h; exact .of_check (by cases sel <;> dsimp only <;> split <;> exact .of_eq rfl rfl)
  | cfgEnter => cases h; exact (ttcKept_endAttempt s .configEntry _).trans (.of_eq rfl rfl)
  | txAbort p q =>
    rw [exec, execTxAbort_eq] at h
    cases h
    have haborted : TtcKept s (s.aborted p q) :=
      .of_eq (by simp [State.ttcClock, State.aborted]) (by simp [State.aborted])
    exact haborted.trans ((ttcKept_setFlagIf (by decide) _ _).trans (.of_eq rfl rfl))
  | rxRelease =>
    cases h
    split
    · exact .of_eq rfl rfl
    · exact (ttcKept_clear s _).trans (.of_eq rfl rfl)
  | errForceBusOff =>
    cases h
    refine .of_check ?_
    split
    · exact .of_eq rfl rfl
    · have hdraw : TtcKept s { s.countDraw with busOff := true } :=
        .of_eq (by simp [State.ttcClock]) s.countDraw_flags
      exact hdraw.trans ((ttcKept_endAttempt _ .busOff _).trans (.of_eq rfl rfl))
  | statusClear mask => cases h; exact (ttcKept_clear s _).trans (.of_eq rfl rfl)

/-- A frame that is not the reference message leaves the timer alone (42 R110, 44 R132). -/
theorem ttcKept_evRxFrame {s : State} {fr : TxFrame} (h : s.isReference fr = false) (et : ErrorType) (d : AbortDraw) :
    TtcKept s (evRxFrame fr et d s) := by
  have hreceived : TtcKept (s.errUpdate .rxOk d) (s.received fr et d) := by
    refine .of_flags_eq ?_ fun i hi => s.flags_received_of_ne fr et d (by omega) (by omega) (by omega)
    rw [s.received_frame fr et d]
    rfl
  rw [evRxFrame_eq, h]
  exact (ttcKept_errUpdate s .rxOk d).trans hreceived

/-- No event but a tick and a reference message touches the TTC clock or sets a TTC flag. -/
theorem ttcKept_eventEffect {e : Event} {s : State} (hk : keepsTtcRunning s.ttcCfg (.event e) = true)
    (ht : e ≠ .clkTick) : TtcKept s (eventEffect e s) := by
  cases e with
  | clkTick => exact absurd rfl ht
  | rxFrame fr et d =>
    refine ttcKept_evRxFrame ?_ et d
    rw [← Bool.not_eq_true, State.isReference_iff]
    rintro ⟨-, hid, hide, -⟩
    simp [keepsTtcRunning, hid, hide] at hk
  | txStart =>
    rw [eventEffect, evTxStart]
    split
    · rw [State.modifySlot_frame]; exact .of_eq rfl rfl
    · exact .refl s
  | txSuccess =>
    rw [eventEffect, evTxSuccess]
    split
    · exact (ttcKept_txCompleted s _).trans (ttcKept_errUpdate _ _ _)
    · exact .refl s
  | txArbLost pos d =>
    have halc : TtcKept s { s with alc := pos } := .of_eq rfl rfl
    exact halc.trans ((ttcKept_setFlag (by decide) _).trans (ttcKept_endAttempt _ .arbLost d))
  | txError t d =>
    have htype : TtcKept s { s with lastErrorType := t } := .of_eq rfl rfl
    exact htype.trans ((ttcKept_setFlag (by decide) _).trans
      ((ttcKept_endAttempt _ .txError d).trans (ttcKept_errUpdate _ (.txErr t) d)))
  | rxError t d =>
    have htype : TtcKept s { s with lastErrorType := t } := .of_eq rfl rfl
    exact htype.trans ((ttcKept_setFlag (by decide) _).trans (ttcKept_errUpdate _ (.rxErr t) d))
  | busOff d =>
    have hoff : TtcKept s { s with busOff := true } := .of_eq rfl rfl
    exact hoff.trans (ttcKept_endAttempt _ .busOff d)
  | busOffRecover => exact .of_eq rfl rfl

/-- A transaction of none of the three commands that write the TTC state. -/
theorem leavesTtc_of_decode_ok {w0 : Word} {rest : List Word} {i : Instr} (hd : decode (w0 :: rest) = .ok i)
    (h : leavesTtc w0 rest = true) : i.opcode ≠ .ttcConfig ∧ i.opcode ≠ .ttcEnable ∧ i.opcode ≠ .reset := by
  simpa only [leavesTtc, hd, Bool.and_eq_true, bne_iff_ne, and_assoc] using h

theorem isTick_event_of_ne {e : Event} (h : e ≠ .clkTick) : isTick (.event e) = false := by
  cases e with
  | clkTick => exact absurd rfl h
  | _ => rfl

/-- Inputs that let the TTC timer run are ticks, or leave its clock alone and set no TTC flag. -/
theorem ttcKept_runInput {i : Input} {s t : State} (h : runInput i s = .next t)
    (hk : keepsTtcRunning s.ttcCfg i = true) :
    isTick i = true ∧ t = evClkTick s ∨ isTick i = false ∧ TtcKept s t := by
  obtain ⟨_, _, _, rfl, -, rfl⟩ | ⟨w0, rest, c, rfl, hd, hc⟩ | ⟨e, rfl, -, rfl⟩ | ⟨rfl, -⟩ := runInput_next h
  · exact .inr ⟨rfl, .of_eq rfl rfl⟩
  · obtain ⟨hcfg, hen, hreset⟩ := leavesTtc_of_decode_ok hd hk
    exact .inr ⟨rfl, ttcKept_exec hc hcfg hen hreset⟩
  · by_cases he : e = .clkTick
    · subst he
      exact .inl ⟨rfl, rfl⟩
    · exact .inr ⟨isTick_event_of_ne he, ttcKept_eventEffect hk he⟩
  · cases hk

end Sys2Proof.Machine
end

section
/-! SUPPORT. The TTC timer between two reference messages (spec/44_ttc.md R134 laws 1 to 3): after `n` ticks it stands
at `n / presc`, and no comparison was met before its time. -/

namespace Sys2Proof

/-- Within a unit of `p` a tick counts on. -/
theorem succ_div_mod_of_lt {n p : Nat} (h : n % p + 1 < p) : (n + 1) / p = n / p ∧ (n + 1) % p = n % p + 1 := by
  have hn := Nat.mod_add_div n p
  exact (Nat.div_mod_unique (by omega)).mpr ⟨by omega, h⟩

/-- The last tick of a unit of `p` begins the next one. -/
theorem succ_div_mod_of_le {n p : Nat} (hp : 0 < p) (h : p ≤ n % p + 1) :
    (n + 1) / p = n / p + 1 ∧ (n + 1) % p = 0 := by
  have hn := Nat.mod_add_div n p
  have hlt := Nat.mod_lt n hp
  exact (Nat.div_mod_unique hp).mpr ⟨by rw [Nat.mul_succ]; omega, hp⟩

namespace Machine

/-- `u` stands `n` ticks after `s`, at which timer and prescaler counter were 0, TTC enabled and its configuration that
of `s` (44 R129, R130). -/
structure TicksAfter (s : State) (n : Nat) (u : State) : Prop where
  en : u.ttcEn = true
  cfg : u.ttcCfg = s.ttcCfg
  timer : u.timer.toNat = n / s.ttcCfg.presc.toNat % 2 ^ 16
  prescCnt : u.prescCnt.toNat = n % s.ttcCfg.presc.toNat
  trigger : n / s.ttcCfg.presc.toNat < s.ttcCfg.trigTime.toNat → u.flag .ttcTrigger = true → s.flag .ttcTrigger = true
  watch : n / s.ttcCfg.presc.toNat < s.ttcCfg.watchTime.toNat →
    u.flag .ttcWatchTrigger = true → s.flag .ttcWatchTrigger = true

theorem TicksAfter.zero {s : State} (he : s.ttcEn = true) (ht : s.timer = 0) (hp : s.prescCnt = 0) :
    TicksAfter s 0 s where
  en := he
  cfg := rfl
  timer := by simp [ht]
  prescCnt := by simp [hp]
  trigger _ h := h
  watch _ h := h

theorem TicksAfter.of_ttcKept {s u v : State} {n : Nat} (h : TicksAfter s n u) (hk : TtcKept u v) :
    TicksAfter s n v := by
  obtain ⟨hen, hcfg, htimer, hcnt⟩ := TtcClock.mk.inj hk.clock
  exact ⟨hen.trans h.en, hcfg.trans h.cfg, htimer ▸ h.timer, hcnt ▸ h.prescCnt,
    fun hn hf => h.trigger hn (hk.flags 12 (by decide) hf), fun hn hf => h.watch hn (hk.flags 13 (by decide) hf)⟩

/-- A tick within a unit of the prescaler. -/
theorem TicksAfter.count {s u : State} {n : Nat} (h : TicksAfter s n u)
    (hp : n % s.ttcCfg.presc.toNat + 1 < s.ttcCfg.presc.toNat) : TicksAfter s (n + 1) (evClkTick u) := by
  obtain ⟨hdiv, hmod⟩ := succ_div_mod_of_lt hp
  rw [evClkTick_of_count h.en (by rw [h.cfg, h.prescCnt]; exact hp)]
  refine ⟨h.en, h.cfg, ?_, ?_, ?_, ?_⟩
  · rw [hdiv]; exact h.timer
  · have hlt := s.ttcCfg.presc.isLt
    rw [hmod, BitVec.toNat_add, h.prescCnt]
    exact Nat.mod_eq_of_lt (show n % s.ttcCfg.presc.toNat + 1 < 2 ^ 16 by omega)
  · rw [hdiv]; exact h.trigger
  · rw [hdiv]; exact h.watch

theorem TicksAfter.timer_advanced {s u : State} {n : Nat} (h : TicksAfter s n u) :
    u.advanced.timer.toNat = (n / s.ttcCfg.presc.toNat + 1) % 2 ^ 16 := by
  rw [State.timer_advanced, h.timer, Nat.mod_add_mod]

/-- Before its time a comparison is not met. -/
theorem TicksAfter.timer_advanced_ne {s u : State} {n : Nat} (h : TicksAfter s n u) {time : BitVec 16}
    (hn : n / s.ttcCfg.presc.toNat + 1 < time.toNat) : u.advanced.timer ≠ time := by
  rintro rfl
  rw [h.timer_advanced] at hn
  exact absurd hn (Nat.not_lt.mpr (Nat.mod_le _ _))

/-- The last tick of a unit of the prescaler. -/
theorem TicksAfter.advance {s u : State} {n : Nat} (h : TicksAfter s n u) (h0 : 0 < s.ttcCfg.presc.toNat)
    (hp : s.ttcCfg.presc.toNat ≤ n % s.ttcCfg.presc.toNat + 1) : TicksAfter s (n + 1) (evClkTick u) := by
  obtain ⟨hdiv, hmod⟩ := succ_div_mod_of_le h0 hp
  have hcfg : u.advanced.ttcCfg = s.ttcCfg := h.cfg
  rw [evClkTick_of_advance h.en (by rw [h.cfg, h.prescCnt]; exact hp)]
  refine ⟨?_, ?_, ?_, ?_, fun hn hf => ?_, fun hn hf => ?_⟩
  · rw [State.ttcCompare_ttcEn]; exact h.en
  · rw [State.ttcCompare_ttcCfg]; exact hcfg
  · rw [State.ttcCompare_timer, h.timer_advanced, hdiv]
  · rw [State.ttcCompare_prescCnt, hmod]; rfl
  · rw [hdiv] at hn
    rw [State.flag_ttcTrigger_ttcCompare, hcfg, beq_eq_false_iff_ne.mpr (h.timer_advanced_ne hn), Bool.or_false] at hf
    exact h.trigger (by omega) hf
  · rw [hdiv] at hn
    rw [State.flag_ttcWatchTrigger_ttcCompare, hcfg, beq_eq_false_iff_ne.mpr (h.timer_advanced_ne hn),
      Bool.or_false] at hf
    exact h.watch (by omega) hf

theorem TicksAfter.tick {s u : State} {n : Nat} (h : TicksAfter s n u) (h0 : 0 < s.ttcCfg.presc.toNat) :
    TicksAfter s (n + 1) (evClkTick u) := by
  by_cases hp : n % s.ttcCfg.presc.toNat + 1 < s.ttcCfg.presc.toNat
  · exact h.count hp
  · exact h.advance h0 (by omega)

/-- Inputs that let the timer run count as many ticks as there are among them. -/
theorem TicksAfter.run {s u t : State} {n : Nat} {is : List Input} (h : TicksAfter s n u)
    (h0 : 0 < s.ttcCfg.presc.toNat) (hk : ∀ i ∈ is, keepsTtcRunning s.ttcCfg i = true)
    (hr : runInputs is u = some t) : TicksAfter s (n + (is.filter isTick).length) t := by
  induction is generalizing n u with
  | nil => cases hr; exact h
  | cons i is ih =>
    obtain ⟨v, hv, hr'⟩ := runInputs_cons_eq_some hr
    have hki : keepsTtcRunning u.ttcCfg i = true := by rw [h.cfg]; exact hk i List.mem_cons_self
    have hks : ∀ j ∈ is, keepsTtcRunning s.ttcCfg j = true := fun j hj => hk j (List.mem_cons_of_mem i hj)
    obtain ⟨ht, rfl⟩ | ⟨ht, hkept⟩ := ttcKept_runInput (takeInput_next hv).2 hki
    · rw [List.filter_cons_of_pos ht, List.length_cons, Nat.add_comm _ 1, ← Nat.add_assoc]
      exact ih (h.tick h0) hks hr'
    · rw [List.filter_cons_of_neg (by simp [ht])]
      exact ih (h.of_ttcKept hkept) hks hr'

/-- From a restart of the timer on, the ticks among the inputs are counted. -/
theorem ticksAfter_of_runInputs {s u : State} {is : List Input} (he : s.ttcEn = true) (ht : s.timer = 0)
    (hp : s.prescCnt = 0) (h0 : 0 < s.ttcCfg.presc.toNat) (hk : ∀ i ∈ is, keepsTtcRunning s.ttcCfg i = true)
    (hr : runInputs is s = some u) : TicksAfter s (is.filter isTick).length u := by
  simpa using (TicksAfter.zero he ht hp).run h0 hk hr

/-- The tick that makes the count of ticks `time × presc` advances the timer, to `time`. -/
theorem TicksAfter.reaches {s u : State} {n : Nat} (h : TicksAfter s n u) (h0 : 0 < s.ttcCfg.presc.toNat)
    {time : BitVec 16} (hn : n + 1 = time.toNat * s.ttcCfg.presc.toNat) :
    evClkTick u = u.advanced.ttcCompare ∧ u.advanced.timer = time := by
  have hlast : s.ttcCfg.presc.toNat ≤ n % s.ttcCfg.presc.toNat + 1 := by
    by_contra hlt
    have hmod := (succ_div_mod_of_lt (Nat.lt_of_not_le hlt)).2
    rw [hn, Nat.mul_mod_left] at hmod
    omega
  have hdiv := (succ_div_mod_of_le h0 hlast).1
  refine ⟨evClkTick_of_advance h.en (by rw [h.cfg, h.prescCnt]; exact hlast), BitVec.eq_of_toNat_eq ?_⟩
  rw [h.timer_advanced, ← hdiv, hn, Nat.mul_div_cancel _ h0, Nat.mod_eq_of_lt time.isLt]

/-- A run that ends with a tick. -/
theorem runInputs_tick_eq_some {is : List Input} {s t : State} (h : runInputs (is ++ [.event .clkTick]) s = some t) :
    ∃ u, runInputs is s = some u ∧ t = evClkTick u := by
  rw [runInputs_append, Option.bind_eq_some_iff] at h
  obtain ⟨u, hu, ht⟩ := h
  obtain ⟨v, hv, hnil⟩ := runInputs_cons_eq_some ht
  cases hnil
  exact ⟨u, hu, runEvent_next (takeInput_next hv).2⟩

end Machine
end Sys2Proof
end

section
/-! The statements of spec/44_ttc.md settled. -/

namespace Sys2Proof.Machine

/-- Settles O51: the checks are those of a legal configuration, and the release is kept for a TransmitStop only. -/
theorem ttcConfigChecksAndWrites : Obligations.TtcConfigChecksAndWrites := by
  intro c s legal
  refine ⟨fun h => ?_, fun h => ?_⟩
  · rw [exec, execTtcConfig_of_legal ((s.ttcLegal_iff c).mpr h), State.releaseAfterConfig_eq]
    rfl
  · exact execTtcConfig_of_illegal (Bool.not_eq_true _ ▸ mt (s.ttcLegal_iff c).mp h)

/-- Settles O54: the three branches of the tick, the comparisons of the third on the advanced timer. -/
theorem clockTickCountsAndCompares : Obligations.ClockTickCountsAndCompares := by
  intro s
  have hrun : runEvent .clkTick s = .next (evClkTick s) := rfl
  refine ⟨fun he => ?_, fun he hp => ?_, fun he hp => ⟨s.advanced.ttcCompare, ?_, ?_, ?_, fun i => ?_, fun ht => ?_,
    fun ht => ?_⟩⟩
  · rw [hrun, evClkTick_of_off he]
  · rw [hrun, evClkTick_of_count he hp]
  · rw [hrun, evClkTick_of_advance he hp]
  · rw [State.ttcCompare_timer]; exact s.advanced.ttcCompare_frame
  · rw [State.ttcCompare_timer]; exact s.timer_advanced
  · rw [State.ttcCompare_timer]; exact s.advanced.flags_ttcCompare i
  · rw [State.ttcCompare_timer] at ht; exact State.released_ttcCompare_of_trigger ht
  · rw [State.ttcCompare_timer] at ht ⊢; exact State.released_ttcCompare_of_ne ht

/-- Settles O55: with prescaler 1 the timer is the count of ticks, so it comes to the trigger time at the `T`-th. -/
theorem triggerFlagIsSetByTheTthTick : Obligations.TriggerFlagIsSetByTheTthTick := by
  intro s between he ht hc hpresc _ hk
  have hone : s.ttcCfg.presc.toNat = 1 := congrArg BitVec.toNat hpresc
  have hrun {u} (hu : runInputs between s = some u) := ticksAfter_of_runInputs he ht hc (by omega) hk hu
  refine ⟨fun u hn hu => ?_, fun t hn hr => ?_⟩
  · have htime := s.ttcCfg.trigTime.isLt
    refine ⟨?_, (hrun hu).trigger (by rw [hone, Nat.div_one]; exact hn)⟩
    rw [(hrun hu).timer, hone, Nat.div_one, Nat.mod_eq_of_lt (by omega)]
  · obtain ⟨u, hu, rfl⟩ := runInputs_tick_eq_some hr
    have hticks := hrun hu
    obtain ⟨hadv, htimer⟩ := hticks.reaches (by omega) (time := s.ttcCfg.trigTime) (by rw [hone, Nat.mul_one]; exact hn)
    have hcfg : u.advanced.ttcCfg = s.ttcCfg := hticks.cfg
    rw [hadv, State.ttcCompare_timer, State.flag_ttcTrigger_ttcCompare, hcfg, htimer]
    exact ⟨rfl, by simp⟩

/-- Settles O56: the timer counts units of the prescaler, so it comes to the watch time at the tick named. -/
theorem watchTriggerTellsALostReference : Obligations.WatchTriggerTellsALostReference := by
  intro s between he ht hc hpresc _ hk
  have hpos : 0 < s.ttcCfg.presc.toNat := Nat.pos_of_ne_zero fun h => hpresc (BitVec.eq_of_toNat_eq h)
  have hrun {u} (hu : runInputs between s = some u) := ticksAfter_of_runInputs he ht hc hpos hk hu
  refine ⟨fun u hn hu => ?_, fun t hn hr => ?_⟩
  · exact (hrun hu).watch (Nat.div_lt_of_lt_mul (by rwa [Nat.mul_comm]))
  · obtain ⟨u, hu, rfl⟩ := runInputs_tick_eq_some hr
    have hticks := hrun hu
    obtain ⟨hadv, htimer⟩ := hticks.reaches hpos (time := s.ttcCfg.watchTime) hn
    have hcfg : u.advanced.ttcCfg = s.ttcCfg := hticks.cfg
    rw [hadv, State.ttcCompare_timer, State.flag_ttcWatchTrigger_ttcCompare, hcfg, htimer]
    exact ⟨rfl, by simp⟩

/-- Settles O52: the rising edge, an enabled TTC, and disabling. -/
theorem ttcEnableRestartsOnTheRisingEdge : Obligations.TtcEnableRestartsOnTheRisingEdge :=
  fun _ => ⟨execTtcEnable_of_off, execTtcEnable_of_on, rfl⟩

/-- Settles O53: the fields of the word, read one by one. -/
theorem ttcReadWordHasItsFields : Obligations.TtcReadWordHasItsFields :=
  fun s => ⟨s.ttcWord, rfl, s.ttcWord_reads⟩

end Sys2Proof.Machine
end

section
/-! SUPPORT. The word of STATUS_READ, the request line, and what STATUS_CLEAR can clear (spec/45_status.md R135 to
R140). -/

namespace Sys2Proof.Machine

theorem State.viewBit_rxFull (s : State) : s.viewBit 6 = true ↔ s.rx.length = 8 := decide_eq_true_iff

theorem State.viewBit_errPassive (s : State) : s.viewBit 10 = s.errorPassive := rfl

theorem State.viewBit_busOff (s : State) : s.viewBit 11 = s.busOff := rfl

/-- A bit other than the three status bits shows its latch. -/
theorem State.viewBit_latched (s : State) {i : Nat} (h6 : i ≠ 6) (h10 : i ≠ 10) (h11 : i ≠ 11) :
    s.viewBit i = s.flags.getLsbD i := by
  simp [State.viewBit, Flag.bit, h6, h10, h11]

theorem State.irq_iff (s : State) :
    s.irq = true ↔ ∃ i, i < 14 ∧ s.viewBit i = true ∧ s.ie.getLsbD i = true := by
  simp [State.irq]

theorem State.statusWord_toNat (s : State) : s.statusWord.toNat = s.ie.toNat * 2 ^ 16 + s.view.toNat := by
  simp only [State.statusWord, append_toNat, BitVec.toNat_ofNat]
  omega

/-- The three fields of the status word above the view. -/
theorem State.statusWord_reads (s : State) :
    field s.statusWord 14 2 = 0 ∧ field s.statusWord 16 14 = s.ie ∧ field s.statusWord 30 2 = 0 := by
  have hw := s.statusWord_toNat
  have hie := s.ie.isLt
  have hview := s.view.isLt
  have hgap : s.statusWord.toNat / 2 ^ 14 % 2 ^ 2 = 0 := by omega
  have htop : s.statusWord.toNat / 2 ^ 30 % 2 ^ 2 = 0 := by omega
  exact ⟨field_eq_of_toNat hgap, field_eq_of_toNat (by omega), field_eq_of_toNat htop⟩

/-- The low 14 bits of the status word are the view. -/
theorem State.bitAt_statusWord (s : State) {i : Nat} (h : i < 14) : bitAt s.statusWord i = s.viewBit i := by
  rw [← s.view_getLsbD i h, bitAt, State.statusWord, BitVec.getLsbD_append, if_pos h]

theorem clearable_getLsbD (i : Nat) : clearable.getLsbD i = decide (i < 14 ∧ i ∉ [4, 6, 10, 11]) := by
  by_cases h : i < 14
  · revert i; decide
  · simp [BitVec.getLsbD_of_ge _ _ (Nat.not_lt.mp h), h]

/-- STATUS_CLEAR at one bit: the mask counts only where the flag is not one of the four spared. -/
theorem getLsbD_statusCleared (flags mask : BitVec 14) (i : Nat) :
    (flags &&& ~~~(mask &&& clearable)).getLsbD i
      = (flags.getLsbD i && !(mask.getLsbD i && decide (i ∉ [4, 6, 10, 11]))) := by
  by_cases h : i < 14
  · rw [BitVec.getLsbD_and, BitVec.getLsbD_not, BitVec.getLsbD_and, clearable_getLsbD]
    simp only [h, decide_true, true_and, Bool.true_and]
  · simp only [BitVec.getLsbD_of_ge _ _ (Nat.not_lt.mp h), Bool.false_and]

end Sys2Proof.Machine
end

section
/-! The statements of spec/45_status.md settled. -/

namespace Sys2Proof.Machine

/-- Settles O57: the low bits of the word are the view, so the request is told from the word and the enables. -/
theorem statusReadShowsTheFlagView : Obligations.StatusReadShowsTheFlagView := by
  intro s
  have hbit (i : Nat) (h : i < 14) : bitAt s.statusWord i = s.viewBit i := s.bitAt_statusWord h
  obtain ⟨hgap, hie, htop⟩ := s.statusWord_reads
  refine ⟨s.statusWord, rfl, fun i hi h6 h10 h11 => ?_, ?_, ?_, hbit 11 (by decide), hgap, hie, htop, ?_⟩
  · rw [hbit i hi, s.viewBit_latched h6 h10 h11]
  · rw [hbit 6 (by decide), s.viewBit_rxFull]
  · rw [hbit 10 (by decide), s.viewBit_errPassive, s.errorPassive_iff]
  · rw [s.irq_iff]
    exact exists_congr fun i => and_congr_right fun hi => by rw [hbit i hi]

/-- Settles O58: a mask bit meets its latch only where the flag is one that STATUS_CLEAR can clear. -/
theorem statusClearSparesTheOverflowFlag : Obligations.StatusClearSparesTheOverflowFlag := by
  intro mask s
  have hbit := getLsbD_statusCleared s.flags mask
  refine ⟨_, rfl, rfl, fun i hspared => ?_, fun i hclearable => ?_⟩
  · rw [State.respond_flags, hbit, decide_eq_false (not_not_intro hspared), Bool.and_false, Bool.not_false,
      Bool.and_true]
  · rw [State.respond_flags, hbit, decide_eq_true hclearable, Bool.and_true]

/-- Settles O59: the write leaves the view as it is, so a named flag in view is then both in view and enabled. -/
theorem interruptEnableWritesTheMaskedEnables : Obligations.InterruptEnableWritesTheMaskedEnables := by
  intro mask en s
  have hie (i : Nat) (hi : i < 14) := setMasked_getLsbD s.ie mask en i hi
  refine ⟨_, rfl, rfl, hie, fun i hi hen hmask hview => ?_⟩
  have henabled : (setMasked s.ie mask en).getLsbD i = true := by rw [hie i hi, if_pos hmask, hen]
  exact (State.irq_iff _).mpr ⟨i, hi, hview, henabled⟩

end Sys2Proof.Machine
end

section
/-! SUPPORT. Commands the host writes one after the other with nothing else going on, each of which succeeds
(spec/46_host_procedures.md R145). -/

namespace Sys2Proof.Machine

/-- `Succeed is s t`: the commands take the block from `s` to `t`, and each answers OK. -/
inductive Succeed : List Instr → State → State → Prop
  | nil (s : State) : Succeed [] s s
  | cons {i : Instr} {is : List Instr} {s t u : State} (hw : i.wf = true) (h : exec i s = .next (t.respond .ok []))
    (hs : Succeed is (t.respond .ok []) u) : Succeed (i :: is) s u

/-- A command that answers OK, at the port. -/
theorem HostRun.cmd_of_ok {i : Instr} {s t : State} (hs : s.Inv) (hw : i.wf = true)
    (h : exec i s = .next (t.respond .ok [])) :
    (HostRun.mk s []).cmd i = some (⟨.ok, []⟩, ⟨t.respond .ok [], []⟩) :=
  cmd_of_exec (s.inv_iff.mpr hs) (decodeOfEncode i hw) h

theorem Succeed.inv {is : List Instr} {s t : State} (h : Succeed is s t) (hs : s.Inv) : t.Inv := by
  induction h with
  | nil => exact hs
  | cons _ h _ ih => exact ih (inv_exec hs h)

theorem HostRun.cmds_of_succeed {is : List Instr} {s t : State} (h : Succeed is s t) (hs : s.Inv) :
    HostRun.cmds is ⟨s, []⟩ = some (true, ⟨t, []⟩) := by
  induction h with
  | nil => rfl
  | cons hw h _ ih =>
    have hrest := ih (inv_exec hs h)
    simp [HostRun.cmds, HostRun.cmd_of_ok hs hw h, hrest]

/-- The FILTER_WRITE of one filter (46 R147). -/
def filterWriteOf (w : Nat × HostFilter) : Instr :=
  .filterWrite (BitVec.ofNat 4 w.1) w.2.maskType w.2.id w.2.idMask

theorem writeFilters_of_succeed {ws : List (Nat × HostFilter)} {s t : State}
    (h : Succeed (ws.map filterWriteOf) s t) (hs : s.Inv) : writeFilters ws ⟨s, []⟩ = some (.ok, ⟨t, []⟩) := by
  induction ws generalizing s with
  | nil => cases h; rfl
  | cons w ws ih =>
    obtain ⟨i, g⟩ := w
    cases h with
    | cons hw h hrest =>
      have hcmd := HostRun.cmd_of_ok hs hw h
      rw [filterWriteOf] at hcmd
      simp [writeFilters, hcmd, ih hrest (inv_exec hs h)]

end Sys2Proof.Machine
end

section
/-! SUPPORT. The filters that `ConfigureFilters` writes, one by one (spec/46_host_procedures.md R147). -/

namespace Sys2Proof.Machine

/-- The filters after the FILTER_WRITEs: each keeps its enable (40 R83). -/
def filtersWritten : List (Nat × HostFilter) → List Sys2Proof.Filter → List Sys2Proof.Filter
  | [], l => l
  | (i, g) :: ws, l => filtersWritten ws (l.modify i fun f => ⟨g.id, g.idMask, g.maskType, f.en⟩)

theorem map_en_filtersWritten (ws : List (Nat × HostFilter)) (l : List Sys2Proof.Filter) :
    (filtersWritten ws l).map (·.en) = l.map (·.en) := by
  induction ws generalizing l with
  | nil => rfl
  | cons w ws ih =>
    rw [filtersWritten, ih]
    apply List.ext_getElem?
    intro j
    rw [List.getElem?_map, List.getElem?_map, List.getElem?_modify]
    cases l[j]? with
    | none => rfl
    | some f => by_cases hj : w.1 = j <;> simp [hj]

@[simp] theorem length_filtersWritten (ws : List (Nat × HostFilter)) (l : List Sys2Proof.Filter) :
    (filtersWritten ws l).length = l.length := by
  simpa using congrArg List.length (map_en_filtersWritten ws l)

theorem getElem?_filtersWritten_of_not_mem {ws : List (Nat × HostFilter)} {j : Nat} (h : j ∉ ws.map Prod.fst)
    (l : List Sys2Proof.Filter) : (filtersWritten ws l)[j]? = l[j]? := by
  induction ws generalizing l with
  | nil => rfl
  | cons w ws ih =>
    obtain ⟨hne, hn⟩ := not_or.mp (List.mem_cons.not.mp h)
    rw [filtersWritten, ih hn, List.getElem?_modify_ne _ _ (Ne.symm hne)]

/-- A filter written once holds what was written. -/
theorem getElem?_filtersWritten_of_mem {ws : List (Nat × HostFilter)} {j : Nat} {g : HostFilter}
    (hd : (ws.map Prod.fst).Nodup) (h : (j, g) ∈ ws) (l : List Sys2Proof.Filter) :
    (filtersWritten ws l)[j]? = l[j]?.map fun f => ⟨g.id, g.idMask, g.maskType, f.en⟩ := by
  induction ws generalizing l with
  | nil => cases h
  | cons w ws ih =>
    obtain ⟨hn, hd⟩ := List.nodup_cons.mp hd
    rw [filtersWritten]
    obtain rfl | h := List.mem_cons.mp h
    · rw [getElem?_filtersWritten_of_not_mem hn, List.getElem?_modify_eq]
      rfl
    · have hne : w.1 ≠ j := by rintro rfl; exact hn (List.mem_map.mpr ⟨_, h, rfl⟩)
      rw [ih hd h, List.getElem?_modify_ne _ _ hne]

/-- In configuration state FILTER_WRITEs of filters that exist succeed. -/
theorem succeed_filterWrites {ws : List (Nat × HostFilter)} {s : State} (hm : s.mode = .config)
    (h : ∀ w ∈ ws, w.1 < 16 ∧ w.1 < s.filt.length) : Succeed (ws.map filterWriteOf) (s.respond .ok [])
      ({ s with filt := filtersWritten ws s.filt }.respond .ok []) := by
  induction ws generalizing s with
  | nil => exact .nil _
  | cons w ws ih =>
    obtain ⟨⟨h16, hlt⟩, hws⟩ := List.forall_mem_cons.mp h
    have hi : (BitVec.ofNat 4 w.1).toNat = w.1 := by rw [BitVec.toNat_ofNat, Nat.mod_eq_of_lt h16]
    have hexec := execFilterWrite_of_config (s := s.respond .ok []) hm (hi.symm ▸ hlt) w.2.maskType w.2.id w.2.idMask
    rw [hi] at hexec
    exact .cons rfl hexec (ih hm (by simpa using hws))

theorem mem_selectedFilters {sel : BitVec 16} {j : Nat} :
    j ∈ selectedFilters sel ↔ j < 16 ∧ sel.getLsbD j = true := by
  simp [selectedFilters]

theorem nodup_selectedFilters (sel : BitVec 16) : (selectedFilters sel).Nodup := List.nodup_range.filter _

theorem selectionOk_iff (s : State) (sel : BitVec 16) (filters : List HostFilter) : selectionOk s sel filters = true ↔
    (selectedFilters sel).length = filters.length ∧ ∀ i, s.filt.length ≤ i → sel.getLsbD i = false := by
  rw [selectionOk, Bool.and_eq_true, beq_iff_eq, Bool.not_eq_true', selectsAbsent_eq_false_iff, State.nfilt]

/-- A selected filter exists. -/
theorem lt_of_mem_selectedFilters {sel : BitVec 16} {n j : Nat} (hp : ∀ i, n ≤ i → sel.getLsbD i = false)
    (h : j ∈ selectedFilters sel) : j < 16 ∧ j < n := by
  obtain ⟨h16, hb⟩ := mem_selectedFilters.mp h
  refine ⟨h16, Nat.lt_of_not_le fun hn => ?_⟩
  rw [hp j hn] at hb
  cases hb

theorem allFilters_getLsbD (n i : Nat) : (allFilters n).getLsbD i = decide (i < n ∧ i < 16) := by
  rw [allFilters, BitVec.getLsbD_ofNat, Nat.testBit_two_pow_sub_one, Bool.eq_iff_iff]
  simp only [Bool.and_eq_true, decide_eq_true_eq]
  omega

/-- Up to 16 filters are all disabled at once. -/
theorem en_of_allDisabled {l : List Sys2Proof.Filter} (hl : l.length ≤ 16) {j : Nat} {f : Sys2Proof.Filter}
    (h : (enableSelected (allFilters l.length) false l)[j]? = some f) : f.en = false := by
  rw [getElem?_enableSelected, Option.map_eq_some_iff] at h
  obtain ⟨g, hg, rfl⟩ := h
  have hj := (List.getElem?_eq_some_iff.mp hg).1
  rw [allFilters_getLsbD, decide_eq_true (And.intro hj (hj.trans_le hl))]
  rfl

/-- The filters `Init` leaves: all disabled, the selected ones written, then enabled (46 R141). -/
def initFilters (sel : BitVec 16) (filters : List HostFilter) (l : List Sys2Proof.Filter) : List Sys2Proof.Filter :=
  enableSelected sel true
    (filtersWritten ((selectedFilters sel).zip filters) (enableSelected (allFilters l.length) false l))

theorem en_of_getElem?_initFilters {l : List Sys2Proof.Filter} (hl : l.length ≤ 16) {sel : BitVec 16}
    {filters : List HostFilter} {j : Nat} {f : Sys2Proof.Filter} (h : (initFilters sel filters l)[j]? = some f) :
    f.en = sel.getLsbD j := by
  rw [initFilters, getElem?_enableSelected, Option.map_eq_some_iff] at h
  obtain ⟨g, hg, rfl⟩ := h
  cases hb : sel.getLsbD j with
  | true => rfl
  | false =>
    have hen := congrArg (·[j]?) (map_en_filtersWritten ((selectedFilters sel).zip filters)
      (enableSelected (allFilters l.length) false l))
    simp only [List.getElem?_map, hg, Option.map_some] at hen
    obtain ⟨f, hf, hfg⟩ := Option.map_eq_some_iff.mp hen.symm
    exact hfg.symm.trans (en_of_allDisabled hl hf)

theorem getElem?_initFilters_of_selected {l : List Sys2Proof.Filter} {sel : BitVec 16} {filters : List HostFilter}
    (hlen : (selectedFilters sel).length = filters.length) (hp : ∀ i, l.length ≤ i → sel.getLsbD i = false) {n j : Nat}
    {g : HostFilter} (hj : (selectedFilters sel)[n]? = some j) (hg : filters[n]? = some g) :
    (initFilters sel filters l)[j]? = some ⟨g.id, g.idMask, g.maskType, true⟩ := by
  have hsel := List.mem_of_getElem? hj
  obtain ⟨-, hlt⟩ := lt_of_mem_selectedFilters hp hsel
  have hmem : (j, g) ∈ (selectedFilters sel).zip filters :=
    List.mem_of_getElem? (List.getElem?_zip_eq_some.mpr ⟨hj, hg⟩)
  have hnodup : (((selectedFilters sel).zip filters).map Prod.fst).Nodup := by
    rw [List.map_fst_zip hlen.le]
    exact nodup_selectedFilters sel
  rw [initFilters, getElem?_enableSelected, getElem?_filtersWritten_of_mem hnodup hmem, getElem?_enableSelected,
    List.getElem?_eq_getElem hlt, (mem_selectedFilters.mp hsel).2]
  rfl

end Sys2Proof.Machine
end

section
/-! SUPPORT. `Init` with valid arguments and nothing else going on (spec/46_host_procedures.md R141): its commands
succeed one after the other. -/

namespace Sys2Proof.Machine

theorem initValid_iff (s : State) (c : InitConfig) : initValid s c = true ↔
    s.timingLegal .slow c.btSlow = true ∧ (∀ b, c.btFast = some b → s.timingLegal .fast b = true)
      ∧ afwlLegal c.afwl = true ∧ 1 ≤ c.ewl.toNat ∧ selectionOk s c.filterSel c.filters = true := by
  simp only [initValid, Bool.and_eq_true, decide_eq_true_eq, and_assoc]
  cases c.btFast <;> simp

/-- The checks of a tuple depend on the parameters alone (40 R80). -/
theorem timingLegal_congr {s t : State} (h : t.params = s.params) (p : Phase) (b : BitTiming) :
    t.timingLegal p b = s.timingLegal p b := by
  cases p <;> simp only [State.timingLegal, State.btRange, h]

theorem execIntEnable_allOff (s : State) :
    execIntEnable 0x3FFF false s = .next ({ s with ie := 0 }.respond .ok []) := by
  have h : setMasked s.ie 0x3FFF false = 0 := by
    apply BitVec.eq_of_getLsbD_eq
    intro i hi
    have hall : ∀ i < 14, (0x3FFF : BitVec 14).getLsbD i = true := by decide
    rw [setMasked_getLsbD _ _ _ _ hi, if_pos (hall i hi)]
    simp
  rw [execIntEnable, h]

theorem execIntEnable_of_allOff {s : State} (h : s.ie = 0) (mask : BitVec 14) :
    execIntEnable mask true s = .next ({ s with ie := mask }.respond .ok []) := by
  have h : setMasked s.ie mask true = mask := by
    apply BitVec.eq_of_getLsbD_eq
    intro i hi
    rw [setMasked_getLsbD _ _ _ _ hi, h]
    simp
  rw [execIntEnable, h]

/-- FILTER_ENABLE of every filter there is passes its check (40 R84). -/
theorem execFilterEnable_allFilters {s : State} {n : Nat} (hn : s.filt.length = n) (en : Bool) :
    execFilterEnable (allFilters n) en s =
      .next ({ s with filt := enableSelected (allFilters n) en s.filt }.respond .ok []) :=
  execFilterEnable_of_present (fun i hi => by
    rw [allFilters_getLsbD, decide_eq_false fun h => Nat.not_le.mpr h.1 (hn.symm.trans_le hi)]) en

/-- The block as the commands of `Init` before its filters leave it, the attempt in progress ended (46 R141). -/
def State.programmed (s : State) (c : InitConfig) : State :=
  { s with
    mode := .config, workMode := c.workMode, btSlow := c.btSlow, btFast := c.btFast.getD s.btFast, txOpt := c.txOpt,
    afwl := c.afwl, rxPolicy := c.rxPolicy, ewl := c.ewl, ie := c.ie,
    filt := enableSelected (allFilters s.filt.length) false s.filt }

/-- The commands of `Init` behind the bit timing. -/
theorem succeed_optionCommands {c : InitConfig} {s : State} {n : Nat} (hn : s.filt.length = n)
    (ha : afwlLegal c.afwl = true) (he : 1 ≤ c.ewl.toNat) :
    Succeed [.setTxOptions c.txOpt, .rxSetConfig c.afwl c.rxPolicy, .errSetWarnLimit c.ewl, .intEnable 0x3FFF false,
        .intEnable c.ie true, .filterEnable (allFilters n) false] s
      ({ s with
          txOpt := c.txOpt, afwl := c.afwl, rxPolicy := c.rxPolicy, ewl := c.ewl, ie := c.ie,
          filt := enableSelected (allFilters n) false s.filt }.respond .ok []) := by
  refine .cons rfl rfl <| .cons rfl (execRxSetConfig_of_legal ha _ _) <| .cons rfl (execErrSetWarnLimit_of_pos he _) <|
    .cons rfl (execIntEnable_allOff _) <| .cons rfl (execIntEnable_of_allOff rfl _) <|
    .cons rfl ?_ (.nil _)
  refine execFilterEnable_allFilters ?_ false
  exact hn

theorem succeed_initCommands {s : State} {c : InitConfig} (hv : initValid s c = true) :
    Succeed (initCommands s c) s (((s.endAttempt .configEntry ⟨false⟩).programmed c).respond .ok []) := by
  obtain ⟨hslow, hfast, ha, he, -⟩ := (initValid_iff s c).mp hv
  have hfilt : (s.endAttempt .configEntry ⟨false⟩).filt.length = s.nfilt := by rw [State.endAttempt_filt, State.nfilt]
  have hlegal (p b) (t : State) (ht : t.params = (s.endAttempt .configEntry ⟨false⟩).params)
      (h : s.timingLegal p b = true) : t.timingLegal p b = true :=
    (timingLegal_congr (ht.trans (s.endAttempt_params _ _)) p b).trans h
  unfold State.programmed initCommands
  rw [hfilt]
  refine .cons rfl rfl <| .cons rfl rfl <| .cons rfl (execBtWrite_of_legal ⟨rfl, hlegal _ _ _ rfl hslow⟩) ?_
  cases hb : c.btFast with
  | none => exact succeed_optionCommands hfilt ha he
  | some b =>
    exact .cons rfl (execBtWrite_of_legal ⟨rfl, hlegal _ _ _ rfl (hfast b hb)⟩) (succeed_optionCommands hfilt ha he)

/-- The block as `Init` leaves it. -/
def State.initialised (s : State) (c : InitConfig) : State :=
  { (s.endAttempt .configEntry ⟨false⟩).programmed c with
    mode := .normal, filt := initFilters c.filterSel c.filters s.filt }.respond .ok []

/-- `Init` returns Ok where its commands, its FILTER_WRITEs and its FILTER_ENABLE all succeed; CFG_LEAVE always does. -/
theorem initDriver_of_succeed {s t u v : State} {c : InitConfig} (hv : initValid s c = true) (hs : s.Inv)
    (hcmds : Succeed (initCommands s c) s t) (hsize : t.nfilt = s.nfilt)
    (hwrites : Succeed (((selectedFilters c.filterSel).zip c.filters).map filterWriteOf) t u)
    (henable : exec (.filterEnable c.filterSel true) u = .next (v.respond .ok [])) :
    initDriver c ⟨s, []⟩ = some (.ok, ⟨{ v with mode := .normal }.respond .ok [], []⟩) := by
  obtain ⟨-, -, -, -, hsel⟩ := (initValid_iff s c).mp hv
  have ht := hcmds.inv hs
  have hu := hwrites.inv ht
  have hconfigure : configureFilters c.filterSel c.filters ⟨t, []⟩ = some (.ok, ⟨u, []⟩) := by
    rw [configureFilters, if_pos (by rw [selectionOk, hsize]; exact hsel), writeFilters_of_succeed hwrites ht]
  have hselect := HostRun.cmd_of_ok hu rfl henable
  have hleave : (HostRun.mk (v.respond .ok []) []).cmd .cfgLeave = _ :=
    HostRun.cmd_of_ok (t := { v with mode := .normal }) (inv_exec hu henable) rfl rfl
  simp [initDriver, hv, HostRun.cmds_of_succeed hcmds hs, hconfigure, enableFilters, hselect, hleave, resultOf]

theorem initDriver_of_valid {s : State} {c : InitConfig} (hv : initValid s c = true) (hs : s.Inv) :
    initDriver c ⟨s, []⟩ = some (.ok, ⟨s.initialised c, []⟩) := by
  obtain ⟨-, -, -, -, hsel⟩ := (initValid_iff s c).mp hv
  obtain ⟨-, hpresent⟩ := (selectionOk_iff _ _ _).mp hsel
  have hfilt : ((s.endAttempt .configEntry ⟨false⟩).programmed c).filt =
      enableSelected (allFilters s.filt.length) false s.filt := by
    rw [State.programmed, State.endAttempt_filt]
  have hsize : ((s.endAttempt .configEntry ⟨false⟩).programmed c).filt.length = s.filt.length := by
    rw [hfilt, enableSelected, List.length_mapIdx]
  have hwrites := succeed_filterWrites (s := (s.endAttempt .configEntry ⟨false⟩).programmed c)
    (ws := (selectedFilters c.filterSel).zip c.filters) rfl fun w hw =>
      hsize.symm ▸ lt_of_mem_selectedFilters hpresent (List.of_mem_zip hw).1
  unfold State.initialised initFilters
  rw [← hfilt]
  refine initDriver_of_succeed hv hs (succeed_initCommands hv) hsize hwrites
    (execFilterEnable_of_present (fun i hi => hpresent i ?_) true)
  rwa [State.respond_filt, length_filtersWritten, hsize] at hi

end Sys2Proof.Machine
end

section
/-! The statement of spec/46_host_procedures.md settled. -/

namespace Sys2Proof.Machine

/-- Settles O60: an invalid argument is turned away before any command; with a valid one each command succeeds. -/
theorem initProgramsTheBlockOrTouchesNothing : Obligations.InitProgramsTheBlockOrTouchesNothing := by
  intro c s
  refine ⟨fun hbad others => ?_, fun hv hs hl => ?_⟩
  · rw [initDriver, hbad]
    rfl
  · obtain ⟨-, -, -, -, hsel⟩ := (initValid_iff s c).mp hv
    obtain ⟨hlen, hpresent⟩ := (selectionOk_iff _ _ _).mp hsel
    refine ⟨_, initDriver_of_valid hv (s.inv_iff.mp hs), rfl, rfl, rfl, fun b hb => ?_, rfl, rfl, rfl, rfl, rfl,
      fun j f hf => en_of_getElem?_initFilters hl hf,
      fun n j g hj hg => getElem?_initFilters_of_selected hlen hpresent hj hg, _, rfl, rfl⟩
    change c.btFast.getD _ = b
    rw [hb, Option.getD_some]

end Sys2Proof.Machine
end

section
/-! SUPPORT. How a command comes out (spec/60_exceptions.md R158, R161): done with OK, or failed with nothing changed
but the response. -/

namespace Sys2Proof.Machine

/-- `DoneOrFailed s t`: a command met by the state `s` and leaving `t` answered OK, whatever it wrote, or failed there
and left everything else as it was. -/
inductive DoneOrFailed (s : State) : State → Prop
  | done (u : State) (ws : List Word) : DoneOrFailed s (u.respond .ok ws)
  | failed (c : ResultCode) : DoneOrFailed s (s.fail c)

theorem DoneOrFailed.eq_fail {s t : State} (h : DoneOrFailed s t) (hc : t.resp.code ≠ .ok) :
    t = s.fail t.resp.code := by
  cases h with
  | done u ws => exact absurd rfl hc
  | failed c => rfl

/-- A command that may fail the check `c` comes out so if it does past the check. -/
theorem doneOrFailed_of_check {s t : State} {c : Prop} [Decidable c] {r : ResultCode} (ht : DoneOrFailed s t) :
    DoneOrFailed s (if c then s.fail r else t) := by
  split
  · exact .failed r
  · exact ht

theorem doneOrFailed_load (s : State) (buf : TxBuffer) (f : TxFrame) : DoneOrFailed s (s.load buf f) := by
  cases buf with
  | ptb => rw [State.load]; split; exacts [.done _ _, .failed _]
  | stb => rw [State.load]; split; exacts [.failed _, .done _ _]

/-- Every command is done or fails: its writes come after the last of its checks. -/
theorem doneOrFailed_exec {i : Instr} {s t : State} (h : exec i s = .next t) : DoneOrFailed s t := by
  cases i with
  | cfgEnter | cfgLeave | setWorkMode | setTxOptions | reset | txAbort | ttcEnable | statusClear | intEnable | btRead
  | txStatusRead | rxStatusRead | errRead | ttcRead | statusRead => cases h; exact .done _ _
  | filterEnable | rxSetConfig | errSetWarnLimit | errForceBusOff | ttcConfig =>
    cases h; exact doneOrFailed_of_check (.done _ _)
  | btWrite | filterWrite | errClearCounters =>
    cases h; exact doneOrFailed_of_check (doneOrFailed_of_check (.done _ _))
  | txLoad buf f => cases h; exact doneOrFailed_of_check (doneOrFailed_of_check (doneOrFailed_load s buf f))
  | txEnable sel => cases h; exact doneOrFailed_of_check (by cases sel <;> exact .done _ _)
  | filterRead index =>
    cases h
    cases s.filt[index.toNat]? with
    | none => exact .failed _
    | some f => exact .done _ _
  | rxPeek | rxRelease =>
    cases h
    cases s.rx with
    | nil => exact .failed _
    | cons e rest => exact .done _ _

end Sys2Proof.Machine
end

section
/-! SUPPORT. What every input answers (spec/00_scope.md R12, spec/46_host_procedures.md R156): a next state, or the
refusal of an event that cannot occur or of a breach of a host duty. -/

namespace Sys2Proof.Machine

theorem runInput_command_next (w0 : Word) (rest : List Word) (s : State) :
    ∃ t, runInput (.command w0 rest) s = .next t :=
  (everyTransactionHasItsResultCode w0 rest s).imp fun _ h => h.1

theorem runEvent_next_or_refused (e : Event) (s : State) :
    (∃ t, runEvent e s = .next t) ∨ runEvent e s = .refused .eventCannotOccur := by
  obtain ⟨hnext, hrefused⟩ := runEvent_of_iff (e := e) (s := s) Iff.rfl
  by_cases hc : eventCanOccur e s = true
  · exact .inl ⟨_, hnext hc⟩
  · exact .inr (hrefused hc)

theorem runInput_next_or_refused (i : Input) (s : State) :
    (∃ t, runInput i s = .next t) ∨ runInput i s = .refused .eventCannotOccur
      ∨ ∃ b, runInput i s = .refused (.hostDuty b) := by
  cases i with
  | command w0 rest => exact .inl (runInput_command_next w0 rest s)
  | event e => exact (runEvent_next_or_refused e s).imp_right .inl
  | hardwareReset => exact .inl ⟨_, rfl⟩
  | hostBreach b => exact .inr (.inr ⟨b, rfl⟩)

end Sys2Proof.Machine
end

section
/-! The statements of spec/60_exceptions.md settled. -/

namespace Sys2Proof.Machine

/-- Settles O8: within the invariants a step is what its input does, and only events and breaches are ever refused. -/
theorem stepStopsOnlyOnImpossibleInputs : Obligations.StepStopsOnlyOnImpossibleInputs := by
  intro s hs
  refine ⟨?_, fun w0 rest more hi => ?_, fun more hi => ?_⟩
  · rw [step_of_inv hs]
    exact runInput_next_or_refused _ _
  · rw [step_of_listed hi hs]
    exact runInput_command_next w0 rest _
  · exact ⟨_, step_of_listed hi hs⟩

/-- Settles O14: a transaction that is no command's fails, and a command that does not answer OK has failed. -/
theorem failingCommandChangesOnlyTheResponse : Obligations.FailingCommandChangesOnlyTheResponse := by
  intro w0 rest s t h hc
  cases hd : decode (w0 :: rest) with
  | error e =>
    rw [runInput_of_decode_error hd] at h
    cases h
    rfl
  | ok i =>
    rw [runInput_of_decode_ok hd] at h
    exact (doneOrFailed_exec h).eq_fail hc

end Sys2Proof.Machine
end
